-- ==== Sys2Proof/Word.lean ====
section
/-!
DEFINITION. The word types of KWFE: the FixedWord of spec/10_state.md rule R10 and the 320-bit command and response words
of spec/30_encoding.md rules R60 and R61. Only types stand here; the arithmetic of rule R100 is in Machine/Evaluate.lean.
-/

namespace Sys2Proof

/-- A FixedWord (rules R7, R10): a 256-bit unsigned integer with arithmetic modulo `2^256`. -/
abbrev FixedWord := BitVec 256

/-- One byte of a canonical byte form (rules R42, R62). -/
abbrev Byte := BitVec 8

/-- A command word as the host sends it (rule R60): bit 319 is its most significant bit. -/
abbrev CommandWord := BitVec 320

/-- A response word as the block sends it (rule R61). -/
abbrev ResponseWord := BitVec 320

/-- One element of the IDX register file: 32 bits (rules R17, R40). -/
abbrev IndexWord := BitVec 32

end Sys2Proof
end

