-- ==== Sys2Proof/Syntax.lean ====
section
/-!
DEFINITION. The 21 host commands of spec/opcode_table.json (spec/30_encoding.md rule R63), one constructor each. Every
command word has the one format of rule R60, so every constructor carries the three fields below the opcode. The block
examines all three (rule R66), so they are part of the command: a command whose unused field is not zero is a term too, and
its meaning is to fail with `E_FIELD`. The four lane steps have no encoding (rule R69) and are not here.
-/

namespace Sys2Proof

/-- The fields of a command word below its opcode (rule R60). -/
structure Fields where
  /-- `[311:288]`, reserved, must be zero. -/
  rsv : BitVec 24
  /-- `[287:256]`, the cell address. -/
  addr : BitVec 32
  /-- `[255:0]`, one FixedWord. -/
  data : FixedWord
deriving DecidableEq, Repr

/-- The host commands, in the order of the opcode map (rule R63). -/
inductive Instr where
  | nop (f : Fields)
  | reset (f : Fields)
  | clrErr (f : Fields)
  | wrTable (f : Fields)
  | wrCommit (f : Fields)
  | wrTarget (f : Fields)
  | arm (f : Fields)
  | eval (f : Fields)
  | search (f : Fields)
  | halt (f : Fields)
  | rdStatus (f : Fields)
  | rdConst (f : Fields)
  | rdCommit (f : Fields)
  | rdTarget (f : Fields)
  | rdTable (f : Fields)
  | rdNonce (f : Fields)
  | rdResult (f : Fields)
  | rdIdx (f : Fields)
  | rdCursor (f : Fields)
  | rdBestNonce (f : Fields)
  | rdBestResult (f : Fields)
deriving DecidableEq, Repr

/-- The three fields of a command. -/
def Instr.fields : Instr → Fields
  | .nop f | .reset f | .clrErr f | .wrTable f | .wrCommit f | .wrTarget f | .arm f | .eval f | .search f | .halt f
  | .rdStatus f | .rdConst f | .rdCommit f | .rdTarget f | .rdTable f | .rdNonce f | .rdResult f | .rdIdx f
  | .rdCursor f | .rdBestNonce f | .rdBestResult f => f

end Sys2Proof
end

