-- ==== Sys2Proof/WellFormed.lean ====
section
/-!
DEFINITION. Which commands are well formed: the must-be-zero fields of spec/30_encoding.md rule R66 against the columns
"uses addr" and "uses data" of the opcode map, rule R63. A command that is not well formed still has a meaning: it fails
with `E_FIELD`.
-/

namespace Sys2Proof

/-- The column "uses `addr`" of rule R63. -/
def Instr.usesAddr : Instr → Bool
  | .rdConst _ | .rdTable _ | .rdIdx _ => true
  | .nop _ | .reset _ | .clrErr _ | .wrTable _ | .wrCommit _ | .wrTarget _ | .arm _ | .eval _ | .search _ | .halt _
  | .rdStatus _ | .rdCommit _ | .rdTarget _ | .rdNonce _ | .rdResult _ | .rdCursor _ | .rdBestNonce _
  | .rdBestResult _ => false

/-- The column "uses `data`" of rule R63. -/
def Instr.usesData : Instr → Bool
  | .wrTable _ | .wrCommit _ | .wrTarget _ | .eval _ => true
  | .nop _ | .reset _ | .clrErr _ | .arm _ | .search _ | .halt _ | .rdStatus _ | .rdConst _ | .rdCommit _ | .rdTarget _
  | .rdTable _ | .rdNonce _ | .rdResult _ | .rdIdx _ | .rdCursor _ | .rdBestNonce _ | .rdBestResult _ => false

/-- Every field that must be zero is zero (rule R66). -/
def Instr.wellFormed (i : Instr) : Bool :=
  i.fields.rsv == 0 && (i.usesAddr || i.fields.addr == 0) && (i.usesData || i.fields.data == 0)

end Sys2Proof
end

