-- ==== Sys2Proof/Decode.lean ====
section
/-!
DEFINITION. The command encoding of spec/30_encoding.md: the fields of a command word (rule R60), the opcode map (rule
R63), the decoder, total on every word and refusing by name, the encoder, and the canonical byte form (rule R62).
The decoder selects the mnemonic by the opcode byte alone; the must-be-zero fields are checked by the meanings (rule R66),
because failing that check is an effect of the command (`E_FIELD`).
-/

namespace Sys2Proof

/-- Why a command could not be decoded. -/
inductive DecodeError where
  /-- The opcode is none of the 21 values of rule R63 (rule R65); the block answers `E_OPCODE`. -/
  | undefinedOpcode (opcode : BitVec 8)
  /-- A byte sequence that is not 40 bytes long is no command word (rules R62, R67). -/
  | wrongLength (bytes : Nat)
deriving DecidableEq, Repr

/-- Bits `[319:312]` of a command word (rule R60). -/
def opcodeField (w : CommandWord) : BitVec 8 := w.extractLsb' 312 8

/-- Bits `[311:288]`, `[287:256]` and `[255:0]` of a command word (rule R60). Operands are used as they stand (rule R70). -/
def fieldsOf (w : CommandWord) : Fields where
  rsv := w.extractLsb' 288 24
  addr := w.extractLsb' 256 32
  data := w.extractLsb' 0 256

/-- The opcode map (rule R63): each opcode with the command it selects. -/
def opcodeMap : List (BitVec 8 × (Fields → Instr)) :=
  [ (0x00, Instr.nop), (0x01, Instr.reset), (0x02, Instr.clrErr),
    (0x10, Instr.wrTable), (0x11, Instr.wrCommit), (0x12, Instr.wrTarget), (0x13, Instr.arm),
    (0x20, Instr.eval),
    (0x30, Instr.search), (0x31, Instr.halt),
    (0x40, Instr.rdStatus), (0x41, Instr.rdConst), (0x42, Instr.rdCommit), (0x43, Instr.rdTarget),
    (0x44, Instr.rdTable), (0x45, Instr.rdNonce), (0x46, Instr.rdResult), (0x47, Instr.rdIdx),
    (0x48, Instr.rdCursor), (0x49, Instr.rdBestNonce), (0x4A, Instr.rdBestResult) ]

/-- The decoder (rules R63, R65): an opcode outside the map is refused, and its other fields are not examined. -/
def decode (w : CommandWord) : Except DecodeError Instr :=
  match opcodeMap.lookup (opcodeField w) with
  | some command => .ok (command (fieldsOf w))
  | none => .error (.undefinedOpcode (opcodeField w))

/-- The integer a big-endian byte sequence stands for, `int_be` of rule R8. -/
def intBe (bytes : List Byte) : Nat :=
  bytes.foldl (fun v b => v * 256 + b.toNat) 0

/-- The canonical big-endian byte form of `count` bytes of a value (rules R42, R62): most significant byte first. -/
def bytesBe : (count : Nat) → (value : Nat) → List Byte
  | 0, _ => []
  | n + 1, v => BitVec.ofNat 8 (v / 256 ^ n) :: bytesBe n v

/-- The 40-byte form of a command or response word (rule R62). -/
def wordBytes (w : BitVec 320) : List Byte := bytesBe 40 w.toNat

/-- The decoder on a byte sequence (rule R62): exactly 40 bytes are a command word. -/
def decodeBytes (bytes : List Byte) : Except DecodeError Instr :=
  if bytes.length = 40 then decode (BitVec.ofNat 320 (intBe bytes)) else .error (.wrongLength bytes.length)

/-- The opcode of a command (rule R63). -/
def Instr.opcode : Instr → BitVec 8
  | .nop _ => 0x00
  | .reset _ => 0x01
  | .clrErr _ => 0x02
  | .wrTable _ => 0x10
  | .wrCommit _ => 0x11
  | .wrTarget _ => 0x12
  | .arm _ => 0x13
  | .eval _ => 0x20
  | .search _ => 0x30
  | .halt _ => 0x31
  | .rdStatus _ => 0x40
  | .rdConst _ => 0x41
  | .rdCommit _ => 0x42
  | .rdTarget _ => 0x43
  | .rdTable _ => 0x44
  | .rdNonce _ => 0x45
  | .rdResult _ => 0x46
  | .rdIdx _ => 0x47
  | .rdCursor _ => 0x48
  | .rdBestNonce _ => 0x49
  | .rdBestResult _ => 0x4A

/-- The command word `{opcode, rsv, addr, data}` (rule R60). -/
def layoutWord (opcode : BitVec 8) (f : Fields) : CommandWord := opcode ++ f.rsv ++ f.addr ++ f.data

/-- The encoder (rules R60, R63). -/
def encode (i : Instr) : CommandWord := layoutWord i.opcode i.fields

/-- The instruction the decoder reads from a table row's word: a command is one word of 320 bits, bit 0 its least
significant bit, and the table gives every bit of it. -/
def decodeTableWord (nbits w : Nat) : Option Instr :=
  (decode (BitVec.ofNat 320 (w % 2 ^ nbits))).toOption

end Sys2Proof
end

