-- ==== Sys2Proof/Config.lean ====
section
/-!
DEFINITION. The implementation parameters of spec/00_scope.md rule R6: the folding moduli `P`, the coefficient moduli `Q`,
the table capacity `N`, the lane count `W` and the first nonce `CURSOR_INIT`. They are configuration and never change
(rule R11). The type carries the constraints of rule R6, so a configuration that breaks one does not exist
(spec/93_implementation_defined.md entry V9).
-/

namespace Sys2Proof

/-- The constraints of rule R6 on the parameters: ten folding moduli and five coefficient moduli, each at least 2;
`1 <= N <= 2^32`; `1 <= W <= 2^32 - 1`. -/
abbrev Config.Legal (P Q : List FixedWord) (N W : Nat) : Prop :=
  P.length = 10 ∧ Q.length = 5 ∧ P.all (fun p => decide (2 ≤ p.toNat)) ∧ Q.all (fun q => decide (2 ≤ q.toNat)) ∧
    (1 ≤ N ∧ N ≤ 2 ^ 32) ∧ (1 ≤ W ∧ W ≤ 2 ^ 32 - 1)

/-- The parameters of one KWFE block (rules R6, R11): `P` and `Q` are two lists with two roles (rule R111, conflict C1). -/
structure Config where
  /-- The ten folding moduli `P[0..9]`, in order (rule R102). -/
  P : List FixedWord
  /-- The five coefficient moduli `Q[0..4]`, in order (rule R101). -/
  Q : List FixedWord
  /-- The table capacity in words (rule R104). -/
  N : Nat
  /-- The number of evaluator lanes (rule R185). -/
  W : Nat
  /-- The first nonce a search run issues (rule R140). -/
  cursorInit : FixedWord
  /-- The constraints of rule R6. -/
  legal : Config.Legal P Q N W
deriving DecidableEq, Repr

/-- The configuration with these parameters, refused (`none`) when they break a constraint of rule R6. -/
def Config.build (P Q : List FixedWord) (N W : Nat) (cursorInit : FixedWord) : Option Config :=
  if h : Config.Legal P Q N W then some { P, Q, N, W, cursorInit, legal := h } else none

/-- The interface revision, `CONST[18]` (rules R40, R121, decision D1). -/
def Config.version : FixedWord := 1

/-- The values the spec leaves `OPEN` for the folding moduli (rule R6, spec/91_not_in_source.md N1): unconstrained. -/
opaque Config.openModulus : Nat → FixedWord

/-- The value the spec leaves `OPEN` for the lane count (rule R6, spec/91_not_in_source.md N3): unconstrained. -/
opaque Config.openLaneCount : BitVec 32

/-- The `k`-th folding modulus of the reference configuration: any legal modulus, and nothing says which. -/
def Config.referenceModulus (k : Nat) : FixedWord :=
  if 2 ≤ (Config.openModulus k).toNat then Config.openModulus k else 2

/-- The lane count of the reference configuration: any legal count, and nothing says which. -/
def Config.referenceLaneCount : Nat :=
  if 1 ≤ Config.openLaneCount.toNat then Config.openLaneCount.toNat else 1

theorem Config.two_le_referenceModulus (k : Nat) : 2 ≤ (Config.referenceModulus k).toNat := by
  unfold Config.referenceModulus
  split
  · assumption
  · decide

theorem Config.referenceLaneCount_bounds :
    1 ≤ Config.referenceLaneCount ∧ Config.referenceLaneCount ≤ 2 ^ 32 - 1 := by
  unfold Config.referenceLaneCount
  have := Config.openLaneCount.isLt
  split <;> omega

/-- The reference configuration (rule R6, decision D17): `N = 2^16`, `CURSOR_INIT = 0`, `Q[j] = P[j]` for `j = 0..4`, with
`P` and `W` open. -/
def Config.reference : Config where
  P := [Config.referenceModulus 0, Config.referenceModulus 1, Config.referenceModulus 2, Config.referenceModulus 3,
    Config.referenceModulus 4, Config.referenceModulus 5, Config.referenceModulus 6, Config.referenceModulus 7,
    Config.referenceModulus 8, Config.referenceModulus 9]
  Q := [Config.referenceModulus 0, Config.referenceModulus 1, Config.referenceModulus 2, Config.referenceModulus 3,
    Config.referenceModulus 4]
  N := 65536
  W := Config.referenceLaneCount
  cursorInit := 0
  legal := by
    refine ⟨rfl, rfl, ?_, ?_, by decide, Config.referenceLaneCount_bounds⟩ <;>
      simp [Config.two_le_referenceModulus]

end Sys2Proof
end

