-- ==== Sys2Proof/Machine/State.lean ====
section
/-!
DEFINITION. The state of KWFE as spec/10_state.md gives it (rules R10 to R20), the two channels of the host port and the
schedule (spec/30_encoding.md rule R68, spec/43_search.md rule R147) as plain data, and the state after reset (rule R27).
A register that can hold no value is an `Option`, as rule R12 asks; its valid bit is a field of its own, as the spec has it.
-/

namespace Sys2Proof.Machine

/-- The life-cycle state `PHASE` (rule R13). -/
inductive Phase where
  | loading | armed | searching | stopped
deriving DecidableEq, Repr

/-- The state `LSTATE` of a lane (rule R19). -/
inductive LaneState where
  | idle | check | fetch | eval | publish | exited
deriving DecidableEq, Repr

/-- One evaluator lane (rule R19): `LSTATE[l]`, `LNONCE[l]`, `LRESULT[l]`. -/
structure Lane where
  state : LaneState
  nonce : Option FixedWord
  result : Option FixedWord
deriving DecidableEq, Repr

/-- The error codes of rule R171. -/
inductive ErrorCode where
  /-- The opcode is not one of the 21 defined. -/
  | opcode
  /-- A field that must be zero is not. -/
  | field
  /-- The command is not permitted in the current phase. -/
  | phase
  /-- `addr` is outside the space the command reads. -/
  | addr
  /-- `WR_TABLE` when all `N` words are written. -/
  | full
  /-- `ARM` when the table is not full or `COMMIT` or `TARGET` is not written. -/
  | notReady
  /-- A read of a register or table word that holds no value. -/
  | noData
deriving DecidableEq, Repr

/-- The table memory: cells of one 256-bit word, keyed by word address (rules R40, R41). An address names a whole cell, never a
byte. An unlisted cell holds no value (rule R12). Canonical form: `Memory.wf`. -/
abbrev Memory := List (Nat × FixedWord)

/-- The canonical form of the table memory: addresses strictly rising, so equal memories are equal lists. What an unlisted
cell reads as is no value, and every listed cell holds one, so no entry repeats it. -/
abbrev Memory.wf (m : Memory) : Prop := m.Pairwise (fun x y => x.1 < y.1)

/-- One item of an execution (rules R49, R147): who acts next. -/
inductive Event where
  /-- The host's next command word (rule R68). -/
  | command (w : CommandWord)
  /-- Lane `l` is the next agent to step (rule R147). -/
  | lane (l : Nat)
  /-- The power-on or external reset input (rule R190). -/
  | reset
deriving DecidableEq, Repr

/-- The state of the block, with the configuration it was built with and its two port channels. -/
structure State where
  /-- The hard-wired parameters (rule R11); no step changes them. -/
  cfg : Config
  /-- `PHASE` (rule R13). -/
  phase : Phase
  /-- `COMMIT` (rule R14). -/
  commit : Option FixedWord
  /-- `C_VALID` (rule R14). -/
  cValid : Bool
  /-- `TARGET` (rule R15). -/
  target : Option FixedWord
  /-- `T_VALID` (rule R15). -/
  tValid : Bool
  /-- `TABLE[0..N-1]` (rule R16). -/
  table : Memory
  /-- `LOAD_PTR` (rule R16), an integer in `[0, N]`. -/
  loadPtr : Nat
  /-- `NONCE` (rule R17). -/
  nonce : Option FixedWord
  /-- `RESULT` (rule R17). -/
  result : Option FixedWord
  /-- `IDX[0..9]` (rule R17). -/
  idx : List (Option IndexWord)
  /-- `DONE` (rule R17). -/
  done : Bool
  /-- `HIT` (rule R17). -/
  hit : Bool
  /-- `CURSOR` (rule R18). -/
  cursor : FixedWord
  /-- `STOP` (rule R18). -/
  stop : Bool
  /-- `BEST_VALID` (rule R18). -/
  bestValid : Bool
  /-- `BEST_NONCE` (rule R18). -/
  bestNonce : Option FixedWord
  /-- `BEST_RESULT` (rule R18). -/
  bestResult : Option FixedWord
  /-- The lanes, lane `l` at position `l`, `W` of them (rule R19). -/
  lanes : List Lane
  /-- `ERR[6:0]` (rule R20). -/
  err : BitVec 7
  /-- The model's own: what is still to happen, first item first: the command channel and the schedule (rules R68, R147). -/
  agenda : List Event
  /-- The model's own: the response channel (rule R68), every response word sent so far, first one first. -/
  responses : List ResponseWord
deriving DecidableEq, Repr

/-- The registers that can hold no value (rule R12). -/
inductive ValueCell where
  | commit | target | tableWord | nonce | result | idx | bestNonce | bestResult | laneNonce | laneResult
deriving DecidableEq, Repr

/-- Why a step has no next state. -/
inductive Fault where
  /-- A step would use the value of a register or table word that holds none, where the spec gives no error code for that
  because it says the case cannot arise (rules R12, R179; `MemRead` is defined only below `LOAD_PTR`, rule R8). Raised by
  `EVAL`, `L_EVAL`, `L_PUBLISH` and by a read command whose valid bit is set over an empty register, only in states no
  run reaches. Safe: the model stops and nothing follows. -/
  | noValue (cell : ValueCell)
deriving DecidableEq, Repr

/-- Why a step was refused. -/
inductive Refusal where
  /-- An instruction that has no meaning yet, by its mnemonic. Raised only by `exec`; no arm raises it in this model. Safe. -/
  | notModelled (mnemonic : String)
deriving DecidableEq, Repr

/-- A lane after reset (rule R27): `IDLE`, holding nothing. -/
def Lane.reset : Lane where
  state := .idle
  nonce := none
  result := none

/-- The state of a block with configuration `c` after reset (rule R27), nothing on its channels. -/
def State.resetOf (c : Config) : State where
  cfg := c
  phase := .loading
  commit := none
  cValid := false
  target := none
  tValid := false
  table := []
  loadPtr := 0
  nonce := none
  result := none
  idx := List.replicate 10 none
  done := false
  hit := false
  cursor := c.cursorInit
  stop := false
  bestValid := false
  bestNonce := none
  bestResult := none
  lanes := List.replicate c.W Lane.reset
  err := 0
  agenda := []
  responses := []

/-- The machine right after reset (rule R27), in the reference configuration of rule R6. -/
def State.reset : State := State.resetOf Config.reference

end Sys2Proof.Machine
end

