-- ==== Sys2Proof/Machine/Flags.lean ====
section
/-!
DEFINITION. Everything the block computes about its own control state: the encodings of `PHASE` and `LSTATE`, the flags
byte and the `STATUS` view (spec/10_state.md rule R21), the number of active lanes (rule R19), the error codes and their
sticky bits (spec/60_exceptions.md rule R171), the response word (spec/30_encoding.md rule R61) and the three level outputs
(rule R176). KWFE has no arithmetic condition codes (rule R23).
-/

namespace Sys2Proof.Machine

/-- The 2-bit encoding of `PHASE` (rule R13). -/
def Phase.bits : Phase → BitVec 2
  | .loading => 0
  | .armed => 1
  | .searching => 2
  | .stopped => 3

/-- The 3-bit encoding of `LSTATE` (rule R19), visible through no command. -/
def LaneState.bits : LaneState → BitVec 3
  | .idle => 0
  | .check => 1
  | .fetch => 2
  | .eval => 3
  | .publish => 4
  | .exited => 5

/-- A lane is active in `CHECK`, `FETCH`, `EVAL` and `PUBLISH` (rule R19). -/
def LaneState.active : LaneState → Bool
  | .check | .fetch | .eval | .publish => true
  | .idle | .exited => false

/-- `LANES_ACTIVE` (rule R19). -/
def State.lanesActive (s : State) : Nat := s.lanes.countP (fun l => l.state.active)

/-- The flags byte, `STATUS[7:0] = {BEST_VALID, STOP, HIT, DONE, T_VALID, C_VALID, PHASE[1:0]}` (rules R21, R61). -/
def State.flagsByte (s : State) : BitVec 8 :=
  BitVec.ofBool s.bestValid ++ BitVec.ofBool s.stop ++ BitVec.ofBool s.hit ++ BitVec.ofBool s.done ++
    BitVec.ofBool s.tValid ++ BitVec.ofBool s.cValid ++ s.phase.bits

/-- The 256-bit `STATUS` view (rule R21): reserved `[255:128]`, `LANES_ACTIVE`, `LOAD_PTR`, reserved `[31:15]`, `ERR[6:0]`,
flags byte. -/
def State.statusWord (s : State) : FixedWord :=
  (0 : BitVec 128) ++ BitVec.ofNat 32 s.lanesActive ++ BitVec.ofNat 64 s.loadPtr ++ (0 : BitVec 17) ++ s.err ++ s.flagsByte

/-- The value of the `code` field for `OK` (rule R171). -/
def okCode : BitVec 8 := 0x00

/-- The value of the `code` field for an error (rule R171). -/
def ErrorCode.code : ErrorCode → BitVec 8
  | .opcode => 0x01
  | .field => 0x02
  | .phase => 0x03
  | .addr => 0x04
  | .full => 0x05
  | .notReady => 0x06
  | .noData => 0x07

/-- The sticky bit of an error: bit `c - 1` of `ERR` for code `c` (rules R20, R171). -/
def ErrorCode.bit (e : ErrorCode) : BitVec 7 := (1 : BitVec 7) <<< (e.code.toNat - 1)

/-- The response word `{code, 48 zero bits, flags, data}` (rule R61). -/
def responseWord (code flags : BitVec 8) (data : FixedWord) : ResponseWord :=
  code ++ (0 : BitVec 48) ++ flags ++ data

/-- Output `o_done = DONE` (rule R176). -/
def State.oDone (s : State) : Bool := s.done

/-- Output `o_hit = HIT` (rule R176). -/
def State.oHit (s : State) : Bool := s.hit

/-- Output `o_stopped`, 1 exactly when `PHASE = STOPPED` (rule R176). -/
def State.oStopped (s : State) : Bool := decide (s.phase = .stopped)

end Sys2Proof.Machine
end

