-- ==== Sys2Proof/Machine/Ops.lean ====
section
/-!
DEFINITION. The named operations over the table memory and the registers, and the two ways a command ends: `respond`
(spec/00_scope.md rule R8, spec/30_encoding.md rule R61) and `fail`, the block's whole error mechanism
(spec/60_exceptions.md rule R170). There is no trap entry and no return from one (rules R174, R175): a failed command sets
its sticky bit and is answered, and nothing is saved or redirected.
-/

namespace Sys2Proof.Machine

/-- `MemRead(i, 32)` (rules R8, R44): one whole word; `none` is a cell that holds no value. -/
def Memory.read : Memory → Nat → Option FixedWord
  | [], _ => none
  | (b, w) :: m, a => if a = b then some w else Memory.read m a

/-- `MemWrite(i, 32, v)` (rules R8, R44): one whole word, keeping the canonical form. -/
def Memory.write : Memory → Nat → FixedWord → Memory
  | [], a, v => [(a, v)]
  | (b, w) :: m, a, v =>
    if a < b then (a, v) :: (b, w) :: m
    else if a = b then (a, v) :: m
    else (b, w) :: Memory.write m a v

/-- The host and the schedule go on from here. -/
def State.setAgenda (s : State) (es : List Event) : State := { s with agenda := es }

/-- One more word on the response channel (rule R68). -/
def State.pushResponse (s : State) (w : ResponseWord) : State := { s with responses := s.responses ++ [w] }

/-- `ERR <- e` (rule R20). -/
def State.setErr (s : State) (e : BitVec 7) : State := { s with err := e }

/-- `PHASE <- p` (rule R13). -/
def State.setPhase (s : State) (p : Phase) : State := { s with phase := p }

/-- `COMMIT <- v; C_VALID <- 1` (rule R84). -/
def State.setCommit (s : State) (v : FixedWord) : State := { s with commit := some v, cValid := true }

/-- `TARGET <- v; T_VALID <- 1` (rule R85). -/
def State.setTarget (s : State) (v : FixedWord) : State := { s with target := some v, tValid := true }

/-- `TABLE[LOAD_PTR] <- v; LOAD_PTR <- LOAD_PTR + 1` (rule R83). -/
def State.appendTable (s : State) (v : FixedWord) : State :=
  { s with table := Memory.write s.table s.loadPtr v, loadPtr := s.loadPtr + 1 }

/-- The five writes of `EVAL` to the host evaluation context (rules R17, R108). -/
def State.setContext (s : State) (n r : FixedWord) (idx : List IndexWord) (hit : Bool) : State :=
  { s with nonce := some n, result := some r, idx := idx.map some, done := true, hit := hit }

/-- `CURSOR <- v` (rule R18). -/
def State.setCursor (s : State) (v : FixedWord) : State := { s with cursor := v }

/-- `STOP <- b` (rule R18). -/
def State.setStop (s : State) (b : Bool) : State := { s with stop := b }

/-- `BEST_VALID <- 0`: `BEST_NONCE` and `BEST_RESULT` hold no value (rule R140). -/
def State.clearBest (s : State) : State := { s with bestValid := false, bestNonce := none, bestResult := none }

/-- `BEST_NONCE <- n; BEST_RESULT <- r; BEST_VALID <- 1`, the pair together (rule R145). -/
def State.setBest (s : State) (n r : FixedWord) : State :=
  { s with bestValid := true, bestNonce := some n, bestResult := some r }

/-- The whole lane file is replaced. -/
def State.setLanes (s : State) (ls : List Lane) : State := { s with lanes := ls }

/-- Lane `l` becomes `x`; every other lane stays. -/
def State.setLane (s : State) (l : Nat) (x : Lane) : State := { s with lanes := s.lanes.set l x }

/-- Every piece of state takes its reset value (rules R27, R81, R191). The constants stay (rule R11), and so do the two
channels of the port, which belong to the host's side: what the host will still send and what it has been answered. -/
def State.resetBlock (s : State) : State :=
  { State.resetOf s.cfg with agenda := s.agenda, responses := s.responses }

/-- `respond(OK, data)` (rule R8): the answer to a command that was carried out, its flags byte read from the state after
all writes of the command (rule R61). -/
def State.respondOk (s : State) (data : FixedWord) : State :=
  s.pushResponse (responseWord okCode s.flagsByte data)

/-- `raise E` (rules R8, R170): the sticky bit of the error is set, the answer is `respond(code, 0)`, and nothing else
changes. -/
def State.fail (s : State) (e : ErrorCode) : State :=
  (s.setErr (s.err ||| e.bit)).pushResponse (responseWord e.code s.flagsByte 0)

/-- A command that was carried out. -/
def finish (s : State) (data : FixedWord) : Host.Outcome State Fault Refusal := .next (s.respondOk data)

/-- A command that failed. -/
def raise (s : State) (e : ErrorCode) : Host.Outcome State Fault Refusal := .next (s.fail e)

/-- Answer a command with the value of a register (or table word) whose valid condition holds. -/
def finishWith (s : State) (cell : ValueCell) (v : Option FixedWord) : Host.Outcome State Fault Refusal :=
  match v with
  | some d => finish s d
  | none => .fault (.noValue cell)

end Sys2Proof.Machine
end

