-- ==== Sys2Proof/Machine/Operands.lean ====
section
/-!
DEFINITION. The operand fields of a command and the common checks every command passes before its own effect
(spec/60_exceptions.md rule R173): first the must-be-zero fields (spec/30_encoding.md rule R66), then the phase (rule R64).
The opcode check comes before both and is the decoder's.
-/

namespace Sys2Proof.Machine

/-- Which operand fields a command uses (the columns of rule R63). -/
inductive FieldUse where
  | none | addr | data
deriving DecidableEq, Repr

/-- Every field that must be zero is zero (rule R66). -/
def FieldUse.ok : FieldUse → Fields → Bool
  | .none, f => f.rsv == 0 && f.addr == 0 && f.data == 0
  | .addr, f => f.rsv == 0 && f.data == 0
  | .data, f => f.rsv == 0 && f.addr == 0

/-- Rows of the phase permission table (rule R64): permitted in every phase. -/
def inAnyPhase : Phase → Bool
  | .loading | .armed | .searching | .stopped => true

/-- Permitted in `LOADING` only: the load commands. -/
def inLoading : Phase → Bool
  | .loading => true
  | .armed | .searching | .stopped => false

/-- Permitted in `ARMED` and `STOPPED`: `EVAL`. -/
def inArmedOrStopped : Phase → Bool
  | .armed | .stopped => true
  | .loading | .searching => false

/-- Permitted in `ARMED` only: `SEARCH`. -/
def inArmed : Phase → Bool
  | .armed => true
  | .loading | .searching | .stopped => false

/-- Permitted in `SEARCHING` only: `HALT`. -/
def inSearching : Phase → Bool
  | .searching => true
  | .loading | .armed | .stopped => false

/-- The common checks in the order of rule R173, then the command's own effect. -/
def checked (use : FieldUse) (permitted : Phase → Bool) (f : Fields) (s : State)
    (effect : Host.Outcome State Fault Refusal) : Host.Outcome State Fault Refusal :=
  if use.ok f = false then raise s .field
  else if permitted s.phase = false then raise s .phase
  else effect

end Sys2Proof.Machine
end

