-- ==== Sys2Proof/Machine/Control.lean ====
section
/-!
DEFINITION. The control commands `NOP`, `RESET` and `CLR_ERR` (spec/40_config_load.md rules R80 to R82).
-/

namespace Sys2Proof.Machine

/-- `NOP` (rule R80). -/
def execNop (f : Fields) (s : State) : Host.Outcome State Fault Refusal :=
  checked .none inAnyPhase f s (finish s 0)

/-- `RESET` (rule R81): every piece of state takes its reset value; the command is answered. -/
def execReset (f : Fields) (s : State) : Host.Outcome State Fault Refusal :=
  checked .none inAnyPhase f s (finish s.resetBlock 0)

/-- `CLR_ERR` (rule R82): `ERR <- 0`. -/
def execClrErr (f : Fields) (s : State) : Host.Outcome State Fault Refusal :=
  checked .none inAnyPhase f s (finish (s.setErr 0) 0)

end Sys2Proof.Machine
end

