-- ==== Sys2Proof/Machine/Evaluate.lean ====
section
/-!
DEFINITION. The work function of spec/41_evaluate.md: the five operations of rule R100, the stages COEF, XRED, HORNER, INDEX,
FOLD and CMP (rules R101 to R105, R107) and the whole function `evaluate` (rule R106). `EVAL` and the lane step `L_EVAL` both
call it.
-/

namespace Sys2Proof.Machine

/-- `add256` (rule R100): addition modulo `2^256`. -/
def add256 (a b : FixedWord) : FixedWord := a + b

/-- `mul256` (rule R100): the low 256 bits of the product. -/
def mul256 (a b : FixedWord) : FixedWord := a * b

/-- `mod` (rule R100): the remainder of unsigned division; every modulus of a configuration is at least 2. -/
def mod256 (a m : FixedWord) : FixedWord := a % m

/-- `xor256` (rule R100). -/
def xor256 (a b : FixedWord) : FixedWord := a ^^^ b

/-- `leq` (rule R100): unsigned, inclusive. -/
def leq (a b : FixedWord) : Bool := decide (a.toNat ≤ b.toNat)

/-- Stage COEF (rule R101): `coeff[j] = (n mod Q[j]) + 1`, `coeff[0]` first. -/
def coefficients (c : Config) (n : FixedWord) : List FixedWord :=
  c.Q.map (fun q => add256 (mod256 n q) 1)

/-- Stage XRED (rule R102): `x[k] = c mod P[k]`. -/
def evalPoint (commitment p : FixedWord) : FixedWord := mod256 commitment p

/-- Stage HORNER (rule R103): `v = coeff[4]`, then `v <- v * x + coeff[j]` for `j = 3, 2, 1, 0`, every step modulo `2^256`. -/
def horner (x : FixedWord) : List FixedWord → FixedWord
  | [] => 0
  | [c] => c
  | c :: c' :: cs => add256 (mul256 (horner x (c' :: cs)) x) c

/-- Stage INDEX (rule R104): `idx = v mod N`, always a legal table address. -/
def tableIndex (c : Config) (v : FixedWord) : Nat := v.toNat % c.N

/-- The ten table addresses of one evaluation, round 0 first (rules R101 to R104). -/
def roundIndices (c : Config) (commitment n : FixedWord) : List Nat :=
  c.P.map (fun p => tableIndex c (horner (evalPoint commitment p) (coefficients c n)))

/-- Stage FOLD (rule R105): the accumulator absorbs one table word per round, in order; `none` when a word holds no value. -/
def foldTable (T : Memory) : FixedWord → List Nat → Option FixedWord
  | acc, [] => some acc
  | acc, i :: is =>
    match Memory.read T i with
    | some w => foldTable T (xor256 acc w) is
    | none => none

/-- What one evaluation yields: the result and the trace `idx[0..9]` (rule R106). -/
structure Evaluation where
  result : FixedWord
  idx : List IndexWord
deriving DecidableEq, Repr

/-- The work function `evaluate(c, n, T)` (rule R106). It is total over a full table; `none` stands for a table word that
holds no value, which no armed block has (rule R12). -/
def evaluate (c : Config) (T : Memory) (commitment n : FixedWord) : Option Evaluation :=
  match foldTable T commitment (roundIndices c commitment n) with
  | some r => some { result := r, idx := (roundIndices c commitment n).map (BitVec.ofNat 32) }
  | none => none

/-- Stage CMP (rule R107): `hit = (result <= TARGET)`. -/
def isHit (result target : FixedWord) : Bool := leq result target

end Sys2Proof.Machine
end

