-- ==== Sys2Proof/Machine/Eval.lean ====
section
/-!
DEFINITION. The command `EVAL` (spec/41_evaluate.md rule R108): one evaluation in the host context.
-/

namespace Sys2Proof.Machine

/-- The effect of `EVAL` after its checks (rule R108): the five writes of the host context, answered with the result. -/
def evalContext (n : FixedWord) (s : State) : Host.Outcome State Fault Refusal :=
  match s.commit with
  | none => .fault (.noValue .commit)
  | some c =>
    match evaluate s.cfg s.table c n with
    | none => .fault (.noValue .tableWord)
    | some e =>
      match s.target with
      | none => .fault (.noValue .target)
      | some t => finish (s.setContext n e.result e.idx (isHit e.result t)) e.result

/-- `EVAL data` (rule R108). -/
def execEval (f : Fields) (s : State) : Host.Outcome State Fault Refusal :=
  checked .data inArmedOrStopped f s (evalContext f.data s)

end Sys2Proof.Machine
end

