-- ==== Sys2Proof/Machine/Load.lean ====
section
/-!
DEFINITION. The load commands `WR_TABLE`, `WR_COMMIT`, `WR_TARGET` and `ARM` (spec/40_config_load.md rules R83 to R86).
-/

namespace Sys2Proof.Machine

/-- `WR_TABLE data` (rule R83). -/
def execWrTable (f : Fields) (s : State) : Host.Outcome State Fault Refusal :=
  checked .data inLoading f s
    (if s.loadPtr = s.cfg.N then raise s .full else finish (s.appendTable f.data) 0)

/-- `WR_COMMIT data` (rule R84). -/
def execWrCommit (f : Fields) (s : State) : Host.Outcome State Fault Refusal :=
  checked .data inLoading f s (finish (s.setCommit f.data) 0)

/-- `WR_TARGET data` (rule R85). -/
def execWrTarget (f : Fields) (s : State) : Host.Outcome State Fault Refusal :=
  checked .data inLoading f s (finish (s.setTarget f.data) 0)

/-- `ARM` (rule R86). -/
def execArm (f : Fields) (s : State) : Host.Outcome State Fault Refusal :=
  checked .none inLoading f s
    (if s.loadPtr < s.cfg.N ∨ s.cValid = false ∨ s.tValid = false then raise s .notReady
     else finish (s.setPhase .armed) 0)

end Sys2Proof.Machine
end

