-- ==== Sys2Proof/Machine/Read.lean ====
section
/-!
DEFINITION. The eleven read commands (spec/42_readback.md rules R120 to R130). None of them writes state other than a sticky
error bit when it fails, and each is accepted in every phase.
-/

namespace Sys2Proof.Machine

/-- `RD_STATUS` (rule R120). -/
def execRdStatus (f : Fields) (s : State) : Host.Outcome State Fault Refusal :=
  checked .none inAnyPhase f s (finish s s.statusWord)

/-- The `CONST` space (rules R40, R121): `0..9 = P`, `10..14 = Q`, `15 = N`, `16 = W`, `17 = CURSOR_INIT`, `18 = VERSION`. -/
def constSpace (c : Config) : List FixedWord :=
  c.P ++ c.Q ++ [BitVec.ofNat 256 c.N, BitVec.ofNat 256 c.W, c.cursorInit, Config.version]

/-- `RD_CONST addr` (rule R121). The space has 19 cells, so an address below 19 always finds one. -/
def execRdConst (f : Fields) (s : State) : Host.Outcome State Fault Refusal :=
  checked .addr inAnyPhase f s
    (match (constSpace s.cfg)[f.addr.toNat]? with
     | some v => finish s v
     | none => raise s .addr)

/-- `RD_COMMIT` (rule R122). -/
def execRdCommit (f : Fields) (s : State) : Host.Outcome State Fault Refusal :=
  checked .none inAnyPhase f s
    (if s.cValid = false then raise s .noData else finishWith s .commit s.commit)

/-- `RD_TARGET` (rule R123). -/
def execRdTarget (f : Fields) (s : State) : Host.Outcome State Fault Refusal :=
  checked .none inAnyPhase f s
    (if s.tValid = false then raise s .noData else finishWith s .target s.target)

/-- `RD_TABLE addr` (rule R124). -/
def execRdTable (f : Fields) (s : State) : Host.Outcome State Fault Refusal :=
  checked .addr inAnyPhase f s
    (if s.cfg.N ≤ f.addr.toNat then raise s .addr
     else if s.loadPtr ≤ f.addr.toNat then raise s .noData
     else finishWith s .tableWord (Memory.read s.table f.addr.toNat))

/-- `RD_NONCE` (rule R125). -/
def execRdNonce (f : Fields) (s : State) : Host.Outcome State Fault Refusal :=
  checked .none inAnyPhase f s
    (if s.done = false then raise s .noData else finishWith s .nonce s.nonce)

/-- `RD_RESULT` (rule R126). -/
def execRdResult (f : Fields) (s : State) : Host.Outcome State Fault Refusal :=
  checked .none inAnyPhase f s
    (if s.done = false then raise s .noData else finishWith s .result s.result)

/-- `IDX[k]`, zero-extended to 256 bits (rules R40, R127); no value where the register holds none. -/
def State.readIdx (s : State) (k : Nat) : Option FixedWord :=
  match s.idx[k]? with
  | some (some v) => some (v.setWidth 256)
  | some none => none
  | none => none

/-- `RD_IDX addr` (rule R127): the address check comes before the no-value check. -/
def execRdIdx (f : Fields) (s : State) : Host.Outcome State Fault Refusal :=
  checked .addr inAnyPhase f s
    (if 10 ≤ f.addr.toNat then raise s .addr
     else if s.done = false then raise s .noData
     else finishWith s .idx (s.readIdx f.addr.toNat))

/-- `RD_CURSOR` (rule R128). -/
def execRdCursor (f : Fields) (s : State) : Host.Outcome State Fault Refusal :=
  checked .none inAnyPhase f s (finish s s.cursor)

/-- `RD_BEST_NONCE` (rule R129). -/
def execRdBestNonce (f : Fields) (s : State) : Host.Outcome State Fault Refusal :=
  checked .none inAnyPhase f s
    (if s.bestValid = false then raise s .noData else finishWith s .bestNonce s.bestNonce)

/-- `RD_BEST_RESULT` (rule R130). -/
def execRdBestResult (f : Fields) (s : State) : Host.Outcome State Fault Refusal :=
  checked .none inAnyPhase f s
    (if s.bestValid = false then raise s .noData else finishWith s .bestResult s.bestResult)

end Sys2Proof.Machine
end

