-- ==== Sys2Proof/Machine/Search.lean ====
section
/-!
DEFINITION. The search commands `SEARCH` and `HALT` (spec/43_search.md rules R140, R141).
-/

namespace Sys2Proof.Machine

/-- The state a search run starts in (rule R140): the coordinator set up, `LSTATE[l] <- CHECK` for every lane. -/
def State.startRun (s : State) : State :=
  ((((s.setPhase .searching).setCursor s.cfg.cursorInit).setStop false).clearBest).setLanes
    (s.lanes.map (fun l => { l with state := .check }))

/-- `SEARCH` (rule R140). -/
def execSearch (f : Fields) (s : State) : Host.Outcome State Fault Refusal :=
  checked .none inArmed f s (finish s.startRun 0)

/-- `HALT` (rule R141): the host sets the stop flag, and the lanes drain cooperatively. -/
def execHalt (f : Fields) (s : State) : Host.Outcome State Fault Refusal :=
  checked .none inSearching f s (finish (s.setStop true) 0)

end Sys2Proof.Machine
end

