-- ==== Sys2Proof/Machine/Dispatch.lean ====
section
/-!
DEFINITION. What each command does: one arm per constructor of Instr, each a direct call of the command's meaning.
-/

namespace Sys2Proof.Machine

/-- The meaning of a command (spec/30_encoding.md rule R63). -/
def exec (i : Instr) (s : State) : Host.Outcome State Fault Refusal :=
  match i with
  | .nop f => Sys2Proof.Machine.execNop f s
  | .reset f => Sys2Proof.Machine.execReset f s
  | .clrErr f => Sys2Proof.Machine.execClrErr f s
  | .wrTable f => Sys2Proof.Machine.execWrTable f s
  | .wrCommit f => Sys2Proof.Machine.execWrCommit f s
  | .wrTarget f => Sys2Proof.Machine.execWrTarget f s
  | .arm f => Sys2Proof.Machine.execArm f s
  | .eval f => Sys2Proof.Machine.execEval f s
  | .search f => Sys2Proof.Machine.execSearch f s
  | .halt f => Sys2Proof.Machine.execHalt f s
  | .rdStatus f => Sys2Proof.Machine.execRdStatus f s
  | .rdConst f => Sys2Proof.Machine.execRdConst f s
  | .rdCommit f => Sys2Proof.Machine.execRdCommit f s
  | .rdTarget f => Sys2Proof.Machine.execRdTarget f s
  | .rdTable f => Sys2Proof.Machine.execRdTable f s
  | .rdNonce f => Sys2Proof.Machine.execRdNonce f s
  | .rdResult f => Sys2Proof.Machine.execRdResult f s
  | .rdIdx f => Sys2Proof.Machine.execRdIdx f s
  | .rdCursor f => Sys2Proof.Machine.execRdCursor f s
  | .rdBestNonce f => Sys2Proof.Machine.execRdBestNonce f s
  | .rdBestResult f => Sys2Proof.Machine.execRdBestResult f s

end Sys2Proof.Machine
end

