-- ==== Sys2Proof/Machine/Lanes.lean ====
section
/-!
DEFINITION. The four lane steps of spec/43_search.md: `L_CHECK`, `L_FETCH`, `L_EVAL`, `L_PUBLISH` (rules R142 to R145), and
which one a lane takes (rule R146). A lane step produces no response, raises no error and never touches the host context.
-/

namespace Sys2Proof.Machine

/-- Every lane has exited. -/
def allExited (ls : List Lane) : Bool := ls.all (fun l => decide (l.state = .exited))

/-- `L_CHECK` (rule R142): the loop test; the last lane to exit ends the run in the same step. -/
def laneCheck (l : Nat) (x : Lane) (s : State) : Host.Outcome State Fault Refusal :=
  if s.stop then
    let s' := s.setLane l { x with state := .exited }
    .next (if allExited s'.lanes then s'.setPhase .stopped else s')
  else .next (s.setLane l { x with state := .fetch })

/-- `L_FETCH` (rule R143): the nonce is the cursor before the increment, in one indivisible step. -/
def laneFetch (l : Nat) (x : Lane) (s : State) : Host.Outcome State Fault Refusal :=
  .next ((s.setCursor (add256 s.cursor 1)).setLane l { x with state := .eval, nonce := some s.cursor })

/-- `L_EVAL` (rule R144). -/
def laneEval (l : Nat) (x : Lane) (s : State) : Host.Outcome State Fault Refusal :=
  match s.commit with
  | none => .fault (.noValue .commit)
  | some c =>
    match x.nonce with
    | none => .fault (.noValue .laneNonce)
    | some n =>
      match evaluate s.cfg s.table c n with
      | none => .fault (.noValue .tableWord)
      | some e => .next (s.setLane l { x with state := .publish, result := some e.result })

/-- The critical section of `L_PUBLISH` (rule R145): what becomes of the best proof and the stop flag when the candidate
`(n, r)` arrives; `none` when the accepted proof has no value to compare with. -/
def publish (n r t : FixedWord) (s : State) : Option State :=
  if leq r t then
    if s.bestValid = false then some ((s.setBest n r).setStop true)
    else
      match s.bestResult with
      | none => none
      | some b => if r.toNat < b.toNat then some (s.setBest n r) else some s
  else some s

/-- `L_PUBLISH` (rule R145): the candidate is published if it is a hit, and the lane returns to `CHECK` holding nothing. -/
def lanePublish (l : Nat) (x : Lane) (s : State) : Host.Outcome State Fault Refusal :=
  match x.result with
  | none => .fault (.noValue .laneResult)
  | some r =>
    match x.nonce with
    | none => .fault (.noValue .laneNonce)
    | some n =>
      match s.target with
      | none => .fault (.noValue .target)
      | some t =>
        match publish n r t s with
        | none => .fault (.noValue .bestResult)
        | some s' => .next (s'.setLane l { state := .check, nonce := none, result := none })

/-- Lane `l` is the agent chosen to step (rules R146, R147): it takes the step named after its state. A lane with no enabled
step leaves the state as it is. -/
def laneStep (l : Nat) (s : State) : Host.Outcome State Fault Refusal :=
  if s.phase = .searching then
    match s.lanes[l]? with
    | none => .next s
    | some x =>
      match x.state with
      | .idle => .next s
      | .check => laneCheck l x s
      | .fetch => laneFetch l x s
      | .eval => laneEval l x s
      | .publish => lanePublish l x s
      | .exited => .next s
  else .next s

end Sys2Proof.Machine
end

