-- ==== Sys2Proof/Machine/Port.lean ====
section
/-!
DEFINITION. What one item of an execution does (spec/20_memory.md rule R49): the host port takes a command word, decodes and
runs it (spec/30_encoding.md rules R65, R68); a lane steps (spec/43_search.md rule R146); the reset input is pulled
(spec/70_reset_and_hazards.md rule R190).
-/

namespace Sys2Proof.Machine

/-- The host port takes one command word (rules R65, R68): an undefined opcode fails with `E_OPCODE`. -/
def takeCommand (w : CommandWord) (s : State) : Host.Outcome State Fault Refusal :=
  match decode w with
  | .ok i => exec i s
  | .error _ => raise s .opcode

/-- One item of an execution (rule R49). An external reset has the effect of `RESET` without an answer (rules R190, R191). -/
def handle (e : Event) (s : State) : Host.Outcome State Fault Refusal :=
  match e with
  | .command w => takeCommand w s
  | .lane l => laneStep l s
  | .reset => .next s.resetBlock

/-- Store a command word where the next step fetches it: at the head of the agenda. -/
def State.pushCommand (s : State) (w : CommandWord) : State := s.setAgenda (.command w :: s.agenda)

end Sys2Proof.Machine
end

