-- ==== Sys2Proof/Machine/Step.lean ====
section
/-!
DEFINITION. One step of the block: the next item of the agenda happens, whole (spec/20_memory.md rule R49). With nothing on
the agenda the block waits (spec/70_reset_and_hazards.md rule R191).
-/

namespace Sys2Proof.Machine

/-- One step (rules R49, R147). -/
def step (s : State) : Host.Outcome State Fault Refusal :=
  match s.agenda with
  | [] => .next s
  | e :: es => handle e (s.setAgenda es)

/-- The state whose very next step takes the command word `w` (its low `nbits` bits, the bits above being zero). -/
def State.withFetchWord (s : State) (nbits w : Nat) : State :=
  s.pushCommand (BitVec.ofNat 320 (w % 2 ^ nbits))

end Sys2Proof.Machine
end

