-- ==== Sys2Proof/Machine/HostDuties.lean ====
section
/-!
DEFINITION. What spec/70_reset_and_hazards.md section 3 gives the host to do outside the block, and the pseudo-commands of
spec/30_encoding.md rule R72. None of it is state of the block or part of its step. `Hash`, `SeedBytes` and `TargetOf` are open
parameters (spec/00_scope.md rule R6), so they are arguments here and a claim holds for every one of them.
-/

namespace Sys2Proof.Machine

/-- `be32(v)` (rule R8): the canonical big-endian 32 bytes of a value. -/
def be32 (v : Nat) : List Byte := bytesBe 32 v

/-- A digest read as a FixedWord, first byte most significant (rule R193, decision D26). -/
def digestWord (digest : Vector Byte 32) : FixedWord := BitVec.ofNat 256 (intBe digest.toList)

/-- The message the Buffer Generator hashes for table word `i` (rule R193). -/
def bufferMessage (seedBytes : List Byte) (i : Nat) : List Byte := seedBytes ++ be32 i

/-- The WordTable of the Buffer Generator (rule R193): word `i` depends on the seed and on `i` alone. -/
def generateTable (hash : List Byte → Vector Byte 32) (seedBytes : List Byte) (count : Nat) : List FixedWord :=
  (List.range count).map (fun i => digestWord (hash (bufferMessage seedBytes i)))

/-- The five fields of the PuzzleHeader in declaration order (rule R194). -/
structure PuzzleHeader where
  solverIdentity : FixedWord
  blockNumber : FixedWord
  blockHash : FixedWord
  targetField : FixedWord
  height : FixedWord
deriving DecidableEq, Repr

/-- The 160-byte message the Puzzle Commitment hashes (rule R194). -/
def headerMessage (h : PuzzleHeader) : List Byte :=
  be32 h.solverIdentity.toNat ++ be32 h.blockNumber.toNat ++ be32 h.blockHash.toNat ++ be32 h.targetField.toNat ++
    be32 h.height.toNat

/-- The Commitment of a header (rule R194). -/
def commitmentOf (hash : List Byte → Vector Byte 32) (h : PuzzleHeader) : FixedWord :=
  digestWord (hash (headerMessage h))

/-- The reference derivation of the Target: the header's target field as it stands (rule R195, decision D28). -/
def referenceTargetOf (targetField : FixedWord) : FixedWord := targetField

/-- The Target the host loads for a header (rule R195). -/
def targetFor (targetOf : FixedWord → FixedWord) (h : PuzzleHeader) : FixedWord := targetOf h.targetField

/-- The winning nonce in decimal digits (rule R196). -/
def renderNonce (n : FixedWord) : List Char := Nat.toDigits 10 n.toNat

/-- The winning digest as the values of its 64 hexadecimal digits, leading zeros kept; the letter case is not given
(rule R196). -/
def renderResult (r : FixedWord) : List Nat := (List.range 64).map (fun k => r.toNat / 16 ^ (63 - k) % 16)

/-- The word of a command with its operand fields. -/
def commandWord (command : Fields → Instr) (addr : BitVec 32) (data : FixedWord) : CommandWord :=
  encode (command { rsv := 0, addr := addr, data := data })

/-- `LOADTABLE w0, w1, ...` (rule R72). -/
def pseudoLoadTable (ws : List FixedWord) : List CommandWord := ws.map (commandWord .wrTable 0)

/-- `BOOT c, t` (rule R72). -/
def pseudoBoot (c t : FixedWord) : List CommandWord :=
  [commandWord .wrCommit 0 c, commandWord .wrTarget 0 t, commandWord .arm 0 0]

/-- `VERIFY n` (rule R72). -/
def pseudoVerify (n : FixedWord) : List CommandWord := [commandWord .eval 0 n, commandWord .rdStatus 0 0]

/-- The load part of the boot sequence (rule R192, steps 2 to 4). -/
def bootSequence (ws : List FixedWord) (c t : FixedWord) : List CommandWord := pseudoLoadTable ws ++ pseudoBoot c t

end Sys2Proof.Machine
end

