-- ==== Sys2Proof/Machine/Schedule.lean ====
section
/-!
DEFINITION. Enabled lane steps and schedules (spec/43_search.md rules R146, R147). State carries the items of a run that ends, as plain
data; an unending execution is a schedule, which is no part of State: for each position the item that happens there, or none while the
block waits. Weak fairness of the lanes is a property of a schedule. DESIGN CHOICE, safe: notes/assumptions/18.md.
-/

namespace Sys2Proof.Machine

/-- Lane `l` has an enabled step (rule R146): the phase is `SEARCHING` and the lane is active. -/
def State.laneEnabled (s : State) (l : Nat) : Bool :=
  match s.lanes[l]? with
  | some x => decide (s.phase = .searching) && x.state.active
  | none => false

/-- Which item happens at each position of an execution (rule R147); `none` where nothing does. -/
abbrev Schedule := Nat → Option Event

/-- The state before position `k` of the execution of a schedule from `s`; the items come from the schedule alone, so the state's
own agenda is dropped. There is none after a step that has no next state. -/
def stateAt (s : State) (sched : Schedule) : Nat → Option State
  | 0 => some (s.setAgenda [])
  | k + 1 =>
    match stateAt s sched k with
    | some t =>
      match step (t.setAgenda (sched k).toList) with
      | .next u => some u
      | .fault _ => none
      | .refused _ => none
    | none => none

/-- Weak fairness for lanes (rule R147): no lane is enabled for ever without stepping. From every position on, each lane is chosen
at some later position or has no enabled step there. -/
def WeaklyFair (s : State) (sched : Schedule) : Prop :=
  ∀ l k : Nat, ∃ j, k ≤ j ∧
    (sched j = some (.lane l) ∨ ∀ t, stateAt s sched j = some t → t.laneEnabled l = false)

/-- The item is the choice of a lane whose step is enabled in `s`. -/
def State.takesLaneStep (s : State) (e : Option Event) : Bool :=
  match e with
  | some (.lane l) => s.laneEnabled l
  | some (.command _) | some .reset | none => false

/-- How many lane steps are taken before position `k` (rule R152 counts them). -/
def laneStepsTaken (s : State) (sched : Schedule) : Nat → Nat
  | 0 => 0
  | k + 1 =>
    laneStepsTaken s sched k +
      match stateAt s sched k with
      | some t => (t.takesLaneStep (sched k)).toNat
      | none => 0

end Sys2Proof.Machine
end

