-- ==== Sys2Proof/Safety.lean ====
section
/-!
DEFINITION. The terms the claims are written in: the answer to a command as it stands on the response channel, which
command fails with which code (the table of spec/60_exceptions.md rule R172, written down on its own), the invariants of
spec/10_state.md rule R28, which nonces a run has drawn (spec/43_search.md rules R149, R150) and how many steps a draining
run has left (rule R152). Nothing of the machine is defined here.
-/

namespace Sys2Proof.Safety

open Sys2Proof.Machine

/-- `t` is the state after a command was carried out with this `data`: code `0x00`, the flags byte read from the state after the
command's effect (rule R61). -/
def answeredOk (t : State) (data : FixedWord) : State :=
  { t with responses := t.responses ++ [responseWord 0x00 t.flagsByte data] }

/-- The state after a command failed with the error whose code is `code` (rule R170): the sticky bit `code - 1`, the answer, and
nothing else. -/
def answeredError (s : State) (code : Nat) : State :=
  { s with
    err := s.err ||| BitVec.ofNat 7 (2 ^ (code - 1))
    responses := s.responses ++ [responseWord (BitVec.ofNat 8 code) s.flagsByte 0] }

/-- The 21 opcodes of rule R63. -/
def definedOpcodes : List (BitVec 8) :=
  [0x00, 0x01, 0x02, 0x10, 0x11, 0x12, 0x13, 0x20, 0x30, 0x31, 0x40, 0x41, 0x42, 0x43, 0x44, 0x45, 0x46, 0x47, 0x48, 0x49,
    0x4A]

/-- The phase permission table (rule R64). -/
def permitted (i : Instr) (p : Phase) : Bool :=
  match i with
  | .nop _ | .reset _ | .clrErr _ => true
  | .wrTable _ | .wrCommit _ | .wrTarget _ | .arm _ => decide (p = .loading)
  | .eval _ => decide (p = .armed ∨ p = .stopped)
  | .search _ => decide (p = .armed)
  | .halt _ => decide (p = .searching)
  | .rdStatus _ | .rdConst _ | .rdCommit _ | .rdTarget _ | .rdTable _ | .rdNonce _ | .rdResult _ | .rdIdx _
  | .rdCursor _ | .rdBestNonce _ | .rdBestResult _ => true

/-- The command's own error, after the checks of fields and phase: the last column of the table of rule R172, the address
check first (rule R173). -/
def ownError (i : Instr) (s : State) : Option Nat :=
  match i with
  | .wrTable _ => if s.loadPtr = s.cfg.N then some 5 else none
  | .arm _ => if s.loadPtr < s.cfg.N ∨ s.cValid = false ∨ s.tValid = false then some 6 else none
  | .rdConst f => if 19 ≤ f.addr.toNat then some 4 else none
  | .rdCommit _ => if s.cValid = false then some 7 else none
  | .rdTarget _ => if s.tValid = false then some 7 else none
  | .rdTable f =>
    if s.cfg.N ≤ f.addr.toNat then some 4 else if s.loadPtr ≤ f.addr.toNat then some 7 else none
  | .rdNonce _ | .rdResult _ => if s.done = false then some 7 else none
  | .rdIdx f => if 10 ≤ f.addr.toNat then some 4 else if s.done = false then some 7 else none
  | .rdBestNonce _ | .rdBestResult _ => if s.bestValid = false then some 7 else none
  | .nop _ | .reset _ | .clrErr _ | .wrCommit _ | .wrTarget _ | .eval _ | .search _ | .halt _ | .rdStatus _
  | .rdCursor _ => none

/-- The code a command of the opcode map fails with, if it fails (rules R172, R173). -/
def errorOf (i : Instr) (s : State) : Option Nat :=
  if i.wellFormed = false then some 2
  else if permitted i s.phase = false then some 3
  else ownError i s

/-- The code a command word fails with, if it fails: an undefined opcode before everything else (rules R172, R173). -/
def wordError (w : CommandWord) (s : State) : Option Nat :=
  if w.extractLsb' 312 8 ∉ definedOpcodes then some 1
  else
    match decode w with
    | .ok i => errorOf i s
    | .error _ => none

/-- The eleven read commands (file 42_readback.md). -/
def isRead (i : Instr) : Bool :=
  match i with
  | .rdStatus _ | .rdConst _ | .rdCommit _ | .rdTarget _ | .rdTable _ | .rdNonce _ | .rdResult _ | .rdIdx _
  | .rdCursor _ | .rdBestNonce _ | .rdBestResult _ => true
  | .nop _ | .reset _ | .clrErr _ | .wrTable _ | .wrCommit _ | .wrTarget _ | .arm _ | .eval _ | .search _
  | .halt _ => false

/-- The items that reset the block (rule R190): the reset input and a well-formed `RESET` command. -/
def resets (e : Event) : Bool :=
  match e with
  | .reset => true
  | .lane _ => false
  | .command w => decide (w = encode (.reset { rsv := 0, addr := 0, data := 0 }))

/-- The result of the work function is `r` for nonce `n` in the frozen configuration of `s` (rule R106). -/
def ResultOf (s : State) (n r : FixedWord) : Prop :=
  ∃ c e, s.commit = some c ∧ evaluate s.cfg s.table c n = some e ∧ e.result = r

/-- The invariants of rule R28, items 1 to 7, with the no-value rule R12 for every register that can hold no value. -/
structure Inv (s : State) : Prop where
  /-- The table memory has its canonical form. -/
  tableForm : Memory.wf s.table
  /-- Item 1. -/
  loadBound : s.loadPtr ≤ s.cfg.N
  /-- Item 1: a word holds a value exactly below `LOAD_PTR`. -/
  tableHolds : ∀ i, (Memory.read s.table i).isSome = decide (i < s.loadPtr)
  /-- `C_VALID` says whether `COMMIT` holds a value. -/
  commitHolds : s.commit.isSome = s.cValid
  /-- `T_VALID` says whether `TARGET` holds a value. -/
  targetHolds : s.target.isSome = s.tValid
  /-- `DONE` says whether the host context holds values (rule R17). -/
  contextHolds : s.nonce.isSome = s.done ∧ s.result.isSome = s.done ∧ ∀ x ∈ s.idx, x.isSome = s.done
  /-- There are ten IDX registers. -/
  idxCount : s.idx.length = 10
  /-- `BEST_VALID` says whether the best proof holds values (rule R18). -/
  bestHolds : s.bestNonce.isSome = s.bestValid ∧ s.bestResult.isSome = s.bestValid
  /-- There are `W` lanes. -/
  laneCount : s.lanes.length = s.cfg.W
  /-- A lane holds a nonce in `EVAL` and `PUBLISH` and a result in `PUBLISH` (rule R19). -/
  laneHolds : ∀ x ∈ s.lanes,
    x.nonce.isSome = decide (x.state = .eval ∨ x.state = .publish) ∧ x.result.isSome = decide (x.state = .publish)
  /-- Item 2. -/
  armed : s.phase ≠ .loading → s.loadPtr = s.cfg.N ∧ s.cValid = true ∧ s.tValid = true
  /-- Item 3. -/
  beforeRun : s.phase = .loading ∨ s.phase = .armed →
    s.stop = false ∧ s.bestValid = false ∧ s.cursor = s.cfg.cursorInit ∧ ∀ x ∈ s.lanes, x.state = .idle
  /-- Item 4. -/
  running : s.phase = .searching → (∀ x ∈ s.lanes, x.state ≠ .idle) ∧ ∃ x ∈ s.lanes, x.state.active = true
  /-- Item 5. -/
  ended : s.phase = .stopped → (∀ x ∈ s.lanes, x.state = .exited) ∧ s.stop = true ∧ s.lanesActive = 0
  /-- Item 6. -/
  best : s.bestValid = true → s.stop = true ∧
    ∃ t n r, s.target = some t ∧ s.bestNonce = some n ∧ s.bestResult = some r ∧ r.toNat ≤ t.toNat ∧ ResultOf s n r
  /-- Item 7. -/
  hitDone : s.hit = true → s.done = true
  /-- Item 7, with the trace of rule R17: the context holds the last evaluation. -/
  context : s.done = true → s.phase ≠ .loading ∧
    ∃ c t n e, s.commit = some c ∧ s.target = some t ∧ s.nonce = some n ∧ evaluate s.cfg s.table c n = some e ∧
      s.result = some e.result ∧ s.idx = e.idx.map some ∧ s.hit = decide (e.result.toNat ≤ t.toNat)
  /-- The result a lane waits to publish is that of its nonce (rules R19, R144). -/
  laneResult : ∀ x ∈ s.lanes, ∀ n r, x.nonce = some n → x.result = some r → ResultOf s n r

/-- Nonce `n` is one of `CURSOR_INIT, ..., CURSOR - 1` modulo `2^256`: the nonces drawn so far in the run, while fewer than
`2^256` were (rules R28 item 8, R150). -/
def drawn (s : State) (n : FixedWord) : Prop :=
  (n - s.cfg.cursorInit).toNat < (s.cursor - s.cfg.cursorInit).toNat

/-- A lane has drawn nonce `n` and not finished with it (rule R25). -/
def inHand (s : State) (n : FixedWord) : Prop :=
  ∃ x ∈ s.lanes, (x.state = .eval ∨ x.state = .publish) ∧ x.nonce = some n

/-- What was to be done with nonce `n` is done: if its result is a hit, the accepted proof is at most it. -/
def settled (s : State) (n : FixedWord) : Prop :=
  ∀ r t, ResultOf s n r → s.target = some t → r.toNat ≤ t.toNat →
    s.bestValid = true ∧ ∃ b, s.bestResult = some b ∧ b.toNat ≤ r.toNat

/-- Every nonce drawn is in some lane's hand or settled: none is lost (rules R149, R152). -/
def NothingLost (s : State) : Prop := ∀ n, drawn s n → inHand s n ∨ settled s n

/-- The nonces in hand and the accepted nonce are among those drawn, and no two lanes hold the same one (rule R150). -/
structure NoRepeat (s : State) : Prop where
  handDrawn : ∀ n, inHand s n → drawn s n
  bestDrawn : ∀ n, s.bestNonce = some n → drawn s n
  handDistinct : ∀ l m : Nat, ∀ x y : Lane, ∀ n, s.lanes[l]? = some x → s.lanes[m]? = some y →
    (x.state = .eval ∨ x.state = .publish) → (y.state = .eval ∨ y.state = .publish) →
    x.nonce = some n → y.nonce = some n → l = m

/-- The nonce the next step issues, if that step is an `L_FETCH` (rule R143). -/
def issuedNext (s : State) : List FixedWord :=
  match s.agenda with
  | .lane l :: _ =>
    if s.phase = .searching ∧ s.lanes[l]?.map Lane.state = some .fetch then [s.cursor] else []
  | _ => []

/-- The nonces issued in the next `k` steps, in execution order (rule R150). -/
def issued : Nat → State → List FixedWord
  | 0, _ => []
  | k + 1, s =>
    issuedNext s ++
      match Machine.step s with
      | .next t => issued k t
      | .fault _ => []
      | .refused _ => []

/-- How many more steps a lane takes before it has exited, once `STOP` is 1 (rule R152). -/
def stepsLeft : LaneState → Nat
  | .idle | .exited => 0
  | .check => 1
  | .publish => 2
  | .eval => 3
  | .fetch => 4

/-- How many more lane steps the block takes before it has stopped, once `STOP` is 1 (rule R152). -/
def drainSteps (s : State) : Nat := (s.lanes.map (fun x => stepsLeft x.state)).sum

end Sys2Proof.Safety
end

