-- ==== Sys2Proof/Certificates/Slice0/Obligations.lean ====
section
/-!
DEFINITION. The statements for the provers, in the words of Safety.lean. `answeredOk t d` is `t` with the response
`OK` and data `d` on its channel; `answeredError s c` is `s` with sticky bit `c - 1` set and the response of code `c`, data 0.
A result written as an equation between states says the frame as well: every field it does not name is unchanged.
-/

open Sys2Proof Sys2Proof.Machine Sys2Proof.Safety

/-! ## Encoding -/

/-- Words of the encoding vectors decode to the command they stand for (30_encoding.md rules R60, R63; vectors V-E4, V-E8, V-E9,
V-E12, V-E15, V-E18 of 95_test_vectors.md). -/
def Obligations.SpecWordsDecode : Prop :=
  decode 0x10000000000000008000000000000000000000000000000000000000000000000000000000000001 =
      .ok (.wrTable ⟨0, 0, 0x8000000000000000000000000000000000000000000000000000000000000001⟩) ∧
    decode 0x200000000000000000000000000000000000000000000000000000000000000000000000000003E8 =
      .ok (.eval ⟨0, 0, 1000⟩) ∧
    decode 0x30000000000000000000000000000000000000000000000000000000000000000000000000000000 =
      .ok (.search ⟨0, 0, 0⟩) ∧
    decode 0x41000000000000120000000000000000000000000000000000000000000000000000000000000000 =
      .ok (.rdConst ⟨0, 18, 0⟩) ∧
    decode 0x440000000000000F0000000000000000000000000000000000000000000000000000000000000000 =
      .ok (.rdTable ⟨0, 15, 0⟩) ∧
    decode 0x47000000000000090000000000000000000000000000000000000000000000000000000000000000 =
      .ok (.rdIdx ⟨0, 9, 0⟩)

/-- Decoding the encoded word of any command, with every value of its three fields, gives the command back (rules R60, R63). -/
def Obligations.DecodeOfEncode : Prop := ∀ i : Instr, decode (encode i) = .ok i

/-- A word that decodes is the encoded word of what it decodes to: no bit of a command word is ignored (rules R60, R63). -/
def Obligations.EncodeOfDecode : Prop := ∀ (w : CommandWord) (i : Instr), decode w = .ok i → encode i = w

/-- A command whose opcode is none of the 21 fails with `E_OPCODE` whatever its other fields are, and nothing else changes; a
command whose opcode is one of them is decoded (rule R65). -/
def Obligations.UndefinedOpcodesFail : Prop :=
  ∀ (s : State) (w : CommandWord) (es : List Event), s.agenda = .command w :: es →
    (w.extractLsb' 312 8 ∉ definedOpcodes →
      Machine.step s = .next (answeredError { s with agenda := es } 1)) ∧
    (w.extractLsb' 312 8 ∈ definedOpcodes → ∃ i, decode w = .ok i)

/-- The canonical byte form (rule R62): 40 bytes, most significant byte first, of a command word and of a response word; a
byte sequence of another length is no command. -/
def Obligations.CanonicalByteForm : Prop :=
  (∀ (op : BitVec 8) (f : Fields), wordBytes (layoutWord op f) =
      [op] ++ bytesBe 3 f.rsv.toNat ++ bytesBe 4 f.addr.toNat ++ bytesBe 32 f.data.toNat) ∧
    (∀ (code flags : BitVec 8) (data : FixedWord), wordBytes (responseWord code flags data) =
      [code, 0, 0, 0, 0, 0, 0, flags] ++ bytesBe 32 data.toNat) ∧
    (∀ w : CommandWord, decodeBytes (wordBytes w) = decode w) ∧
    (∀ bs : List Byte, bs.length ≠ 40 → decodeBytes bs = .error (.wrongLength bs.length))

/-! ## The step -/

/-- When the next item is a command word that decodes to `i`, the step is `exec i` on the state with that word taken from the
command channel (rule R68). -/
def Obligations.StepRunsDecodedCommand : Prop :=
  ∀ (s : State) (w : CommandWord) (es : List Event) (i : Instr), s.agenda = .command w :: es → decode w = .ok i →
    Machine.step s = exec i { s with agenda := es }

/-- A command placed where the next step fetches runs as that command, from every state (where it is placed is the model's choice,
notes/assumptions/3.md). -/
def Obligations.PlacedCommandRunsNext : Prop :=
  ∀ (s : State) (i : Instr), Machine.step (s.withFetchWord 320 (encode i).toNat) = exec i s

/-- With nothing on the agenda the block waits, and choosing a lane that has no enabled step changes nothing but the agenda
(rules R146, R191; the model's choice, notes/assumptions/4.md and 6.md). -/
def Obligations.NothingEnabledChangesNothing : Prop :=
  ∀ s : State, (s.agenda = [] → Machine.step s = .next s) ∧
    ∀ (l : Nat) (es : List Event), s.agenda = .lane l :: es →
      (s.phase ≠ .searching ∨ s.lanes[l]? = none ∨ s.lanes[l]?.map Lane.state = some .idle ∨
        s.lanes[l]?.map Lane.state = some .exited) →
      Machine.step s = .next { s with agenda := es }

/-! ## Configuration and reset -/

/-- A configuration is built from parameters exactly when they meet the constraints of rule R6, and every configuration meets
them. -/
def Obligations.IllegalConfigurationsRefused : Prop :=
  (∀ (P Q : List FixedWord) (N W : Nat) (c : FixedWord), (Config.build P Q N W c).isSome = true ↔
      P.length = 10 ∧ Q.length = 5 ∧ (∀ p ∈ P, 2 ≤ p.toNat) ∧ (∀ q ∈ Q, 2 ≤ q.toNat) ∧ 1 ≤ N ∧ N ≤ 2 ^ 32 ∧
        1 ≤ W ∧ W ≤ 2 ^ 32 - 1) ∧
    ∀ c : Config, Config.build c.P c.Q c.N c.W c.cursorInit = some c

/-- The machine right after reset is the reset state of the reference configuration: `N = 2^16`, `CURSOR_INIT = 0`,
`Q[j] = P[j]` for `j = 0..4` (rule R6, conflict C1). That `State.reset` takes this configuration is the model's choice,
notes/assumptions/2.md. -/
def Obligations.ReferenceConfiguration : Prop :=
  State.reset = State.resetOf Config.reference ∧ State.reset.cfg.N = 65536 ∧ State.reset.cfg.cursorInit = 0 ∧
    State.reset.cfg.Q = State.reset.cfg.P.take 5

/-- The reset values of rule R27, for every configuration. -/
def Obligations.ResetValues : Prop :=
  ∀ c : Config, (State.resetOf c).phase = .loading ∧ (State.resetOf c).commit = none ∧ (State.resetOf c).target = none ∧
    (State.resetOf c).cValid = false ∧ (State.resetOf c).tValid = false ∧
    (∀ a, Memory.read (State.resetOf c).table a = none) ∧ (State.resetOf c).loadPtr = 0 ∧
    (State.resetOf c).nonce = none ∧ (State.resetOf c).result = none ∧
    (∀ k < 10, (State.resetOf c).idx[k]? = some none) ∧
    (State.resetOf c).done = false ∧ (State.resetOf c).hit = false ∧ (State.resetOf c).cursor = c.cursorInit ∧
    (State.resetOf c).stop = false ∧ (State.resetOf c).bestValid = false ∧ (State.resetOf c).bestNonce = none ∧
    (State.resetOf c).bestResult = none ∧
    (∀ l < c.W, (State.resetOf c).lanes[l]? = some ⟨.idle, none, none⟩) ∧ (State.resetOf c).lanes.length = c.W ∧
    (State.resetOf c).err = 0 ∧ (State.resetOf c).cfg = c

/-! ## Control commands -/

/-- `NOP` (rule R80): answered `OK`, nothing else, in every phase; `E_FIELD` when a field is not zero. -/
def Obligations.NopAnswersOnly : Prop :=
  ∀ (f : Fields) (s : State),
    ((Instr.nop f).wellFormed = true → exec (.nop f) s = .next (answeredOk s 0)) ∧
    ((Instr.nop f).wellFormed = false → exec (.nop f) s = .next (answeredError s 2))

/-- `RESET` and the external reset (rules R81, R190, R191): every piece of state takes its reset value, the constants stay;
only the command is answered, `OK` with flags 0. That the response channel and the items still to come outlive the reset is the
model's choice, notes/assumptions/5.md and 10.md. -/
def Obligations.ResetRestoresResetState : Prop :=
  (∀ (f : Fields) (s : State),
    ((Instr.reset f).wellFormed = true → exec (.reset f) s = .next { State.resetOf s.cfg with
      agenda := s.agenda, responses := s.responses ++ [responseWord 0x00 0x00 0] }) ∧
    ((Instr.reset f).wellFormed = false → exec (.reset f) s = .next (answeredError s 2))) ∧
  ∀ (s : State) (es : List Event), s.agenda = .reset :: es →
    Machine.step s = .next { State.resetOf s.cfg with agenda := es, responses := s.responses }

/-- `CLR_ERR` (rule R82): all seven sticky bits cleared at once, nothing else. -/
def Obligations.ClrErrClearsAllStickyBits : Prop :=
  ∀ (f : Fields) (s : State),
    ((Instr.clrErr f).wellFormed = true → exec (.clrErr f) s = .next (answeredOk { s with err := 0 } 0)) ∧
    ((Instr.clrErr f).wellFormed = false → exec (.clrErr f) s = .next (answeredError s 2))

/-! ## Load commands -/

/-- `WR_TABLE data` (rule R83): the word goes to `TABLE[LOAD_PTR]`, every other word reads as before, `LOAD_PTR` grows by one,
and nothing else changes; the three errors change nothing but `ERR`. -/
def Obligations.WrTableAppendsWord : Prop :=
  ∀ (f : Fields) (s : State),
    ((Instr.wrTable f).wellFormed = true → s.phase = .loading → s.loadPtr ≠ s.cfg.N →
      ∃ T : Memory, (∀ a, Memory.read T a = if a = s.loadPtr then some f.data else Memory.read s.table a) ∧
        exec (.wrTable f) s = .next (answeredOk { s with table := T, loadPtr := s.loadPtr + 1 } 0)) ∧
    ((Instr.wrTable f).wellFormed = false → exec (.wrTable f) s = .next (answeredError s 2)) ∧
    ((Instr.wrTable f).wellFormed = true → s.phase ≠ .loading → exec (.wrTable f) s = .next (answeredError s 3)) ∧
    ((Instr.wrTable f).wellFormed = true → s.phase = .loading → s.loadPtr = s.cfg.N →
      exec (.wrTable f) s = .next (answeredError s 5))

/-- `WR_COMMIT data` and `WR_TARGET data` (rules R84, R85): the register and its valid bit, nothing else. -/
def Obligations.WrCommitAndWrTargetWriteTheirRegister : Prop :=
  ∀ (f : Fields) (s : State),
    ((Instr.wrCommit f).wellFormed = true → s.phase = .loading →
      exec (.wrCommit f) s = .next (answeredOk { s with commit := some f.data, cValid := true } 0)) ∧
    ((Instr.wrCommit f).wellFormed = false → exec (.wrCommit f) s = .next (answeredError s 2)) ∧
    ((Instr.wrCommit f).wellFormed = true → s.phase ≠ .loading → exec (.wrCommit f) s = .next (answeredError s 3)) ∧
    ((Instr.wrTarget f).wellFormed = true → s.phase = .loading →
      exec (.wrTarget f) s = .next (answeredOk { s with target := some f.data, tValid := true } 0)) ∧
    ((Instr.wrTarget f).wellFormed = false → exec (.wrTarget f) s = .next (answeredError s 2)) ∧
    ((Instr.wrTarget f).wellFormed = true → s.phase ≠ .loading → exec (.wrTarget f) s = .next (answeredError s 3))

/-- `ARM` (rule R86): `PHASE` becomes `ARMED` and nothing else, exactly when the table is full and both registers are written. -/
def Obligations.ArmFreezesACompleteLoad : Prop :=
  ∀ (f : Fields) (s : State),
    ((Instr.arm f).wellFormed = true → s.phase = .loading → s.cfg.N ≤ s.loadPtr → s.cValid = true → s.tValid = true →
      exec (.arm f) s = .next (answeredOk { s with phase := .armed } 0)) ∧
    ((Instr.arm f).wellFormed = false → exec (.arm f) s = .next (answeredError s 2)) ∧
    ((Instr.arm f).wellFormed = true → s.phase ≠ .loading → exec (.arm f) s = .next (answeredError s 3)) ∧
    ((Instr.arm f).wellFormed = true → s.phase = .loading →
      (s.loadPtr < s.cfg.N ∨ s.cValid = false ∨ s.tValid = false) → exec (.arm f) s = .next (answeredError s 6))

/-! ## EVAL -/

/-- `EVAL data` (rule R108): the five writes of the host context, answered with the result; nothing of the coordinator, the lanes
or the configuration changes. On an error the context keeps its content. -/
def Obligations.EvalWritesHostContext : Prop :=
  ∀ (f : Fields) (s : State),
    ((Instr.eval f).wellFormed = true → (s.phase = .armed ∨ s.phase = .stopped) →
      ∀ (c t : FixedWord) (e : Evaluation), s.commit = some c → s.target = some t →
        evaluate s.cfg s.table c f.data = some e →
        exec (.eval f) s = .next (answeredOk
          { s with
            nonce := some f.data, result := some e.result, idx := e.idx.map some, done := true
            hit := decide (e.result.toNat ≤ t.toNat) } e.result)) ∧
    ((Instr.eval f).wellFormed = false → exec (.eval f) s = .next (answeredError s 2)) ∧
    ((Instr.eval f).wellFormed = true → (s.phase = .loading ∨ s.phase = .searching) →
      exec (.eval f) s = .next (answeredError s 3))

/-! ## Search commands -/

/-- `SEARCH` (rule R140): the run's start state, the host context untouched. What becomes of `BEST_NONCE`, `BEST_RESULT` and the lane
registers is read from the rule's pseudocode, notes/assumptions/16.md. -/
def Obligations.SearchStartsEveryLane : Prop :=
  ∀ (f : Fields) (s : State),
    ((Instr.search f).wellFormed = true → s.phase = .armed →
      exec (.search f) s = .next (answeredOk
        { s with
          phase := .searching, cursor := s.cfg.cursorInit, stop := false, bestValid := false, bestNonce := none
          bestResult := none, lanes := s.lanes.map (fun x => { x with state := .check }) } 0)) ∧
    ((Instr.search f).wellFormed = false → exec (.search f) s = .next (answeredError s 2)) ∧
    ((Instr.search f).wellFormed = true → s.phase ≠ .armed → exec (.search f) s = .next (answeredError s 3))

/-- `HALT` (rule R141): the stop flag, and nothing else. -/
def Obligations.HaltSetsStopOnly : Prop :=
  ∀ (f : Fields) (s : State),
    ((Instr.halt f).wellFormed = true → s.phase = .searching →
      exec (.halt f) s = .next (answeredOk { s with stop := true } 0)) ∧
    ((Instr.halt f).wellFormed = false → exec (.halt f) s = .next (answeredError s 2)) ∧
    ((Instr.halt f).wellFormed = true → s.phase ≠ .searching → exec (.halt f) s = .next (answeredError s 3))

/-! ## Read commands -/

/-- `RD_STATUS` and `RD_CURSOR` (rules R120, R128): the view and the cursor, in every phase. -/
def Obligations.RdStatusAndRdCursorAnswer : Prop :=
  ∀ (f : Fields) (s : State),
    ((Instr.rdStatus f).wellFormed = true → exec (.rdStatus f) s = .next (answeredOk s s.statusWord)) ∧
    ((Instr.rdStatus f).wellFormed = false → exec (.rdStatus f) s = .next (answeredError s 2)) ∧
    ((Instr.rdCursor f).wellFormed = true → exec (.rdCursor f) s = .next (answeredOk s s.cursor)) ∧
    ((Instr.rdCursor f).wellFormed = false → exec (.rdCursor f) s = .next (answeredError s 2))

/-- The fields of the `STATUS` view (rule R21), and the three level outputs (rule R176). -/
def Obligations.StatusViewFields : Prop :=
  ∀ s : State,
    (s.statusWord.extractLsb' 0 2).toNat =
        (match s.phase with | .loading => 0 | .armed => 1 | .searching => 2 | .stopped => 3) ∧
    s.statusWord.getLsbD 2 = s.cValid ∧ s.statusWord.getLsbD 3 = s.tValid ∧ s.statusWord.getLsbD 4 = s.done ∧
    s.statusWord.getLsbD 5 = s.hit ∧ s.statusWord.getLsbD 6 = s.stop ∧ s.statusWord.getLsbD 7 = s.bestValid ∧
    s.statusWord.extractLsb' 8 7 = s.err ∧ s.statusWord.getLsbD 15 = false ∧ s.statusWord.extractLsb' 16 16 = 0 ∧
    s.statusWord.extractLsb' 32 64 = BitVec.ofNat 64 s.loadPtr ∧
    s.statusWord.extractLsb' 96 32 = BitVec.ofNat 32 (s.lanes.filter (fun x => x.state.active)).length ∧
    s.statusWord.extractLsb' 128 128 = 0 ∧ s.statusWord.extractLsb' 0 8 = s.flagsByte ∧
    s.oDone = s.done ∧ s.oHit = s.hit ∧ (s.oStopped = true ↔ s.phase = .stopped)

/-- `RD_CONST addr` (rule R121): the cell of the CONST space, `E_ADDR` from 19 on. -/
def Obligations.RdConstReadsTheConstant : Prop :=
  ∀ (f : Fields) (s : State),
    ((Instr.rdConst f).wellFormed = false → exec (.rdConst f) s = .next (answeredError s 2)) ∧
    ((Instr.rdConst f).wellFormed = true →
      (∀ p, f.addr.toNat < 10 → s.cfg.P[f.addr.toNat]? = some p → exec (.rdConst f) s = .next (answeredOk s p)) ∧
      (∀ q, 10 ≤ f.addr.toNat → f.addr.toNat < 15 → s.cfg.Q[f.addr.toNat - 10]? = some q →
        exec (.rdConst f) s = .next (answeredOk s q)) ∧
      (f.addr = 15 → exec (.rdConst f) s = .next (answeredOk s (BitVec.ofNat 256 s.cfg.N))) ∧
      (f.addr = 16 → exec (.rdConst f) s = .next (answeredOk s (BitVec.ofNat 256 s.cfg.W))) ∧
      (f.addr = 17 → exec (.rdConst f) s = .next (answeredOk s s.cfg.cursorInit)) ∧
      (f.addr = 18 → exec (.rdConst f) s = .next (answeredOk s 1)) ∧
      (19 ≤ f.addr.toNat → exec (.rdConst f) s = .next (answeredError s 4)))

/-- `RD_COMMIT` and `RD_TARGET` (rules R122, R123): the register, or `E_NODATA` while its valid bit is 0. -/
def Obligations.RdCommitAndRdTargetAnswer : Prop :=
  ∀ (f : Fields) (s : State),
    ((Instr.rdCommit f).wellFormed = true → s.cValid = true → ∀ v, s.commit = some v →
      exec (.rdCommit f) s = .next (answeredOk s v)) ∧
    ((Instr.rdCommit f).wellFormed = true → s.cValid = false → exec (.rdCommit f) s = .next (answeredError s 7)) ∧
    ((Instr.rdCommit f).wellFormed = false → exec (.rdCommit f) s = .next (answeredError s 2)) ∧
    ((Instr.rdTarget f).wellFormed = true → s.tValid = true → ∀ v, s.target = some v →
      exec (.rdTarget f) s = .next (answeredOk s v)) ∧
    ((Instr.rdTarget f).wellFormed = true → s.tValid = false → exec (.rdTarget f) s = .next (answeredError s 7)) ∧
    ((Instr.rdTarget f).wellFormed = false → exec (.rdTarget f) s = .next (answeredError s 2))

/-- `RD_TABLE addr` (rule R124): the word, `E_ADDR` from `N` on, `E_NODATA` from `LOAD_PTR` on. -/
def Obligations.RdTableReadsOneWord : Prop :=
  ∀ (f : Fields) (s : State),
    ((Instr.rdTable f).wellFormed = true → f.addr.toNat < s.cfg.N → f.addr.toNat < s.loadPtr →
      ∀ v, Memory.read s.table f.addr.toNat = some v → exec (.rdTable f) s = .next (answeredOk s v)) ∧
    ((Instr.rdTable f).wellFormed = false → exec (.rdTable f) s = .next (answeredError s 2)) ∧
    ((Instr.rdTable f).wellFormed = true → s.cfg.N ≤ f.addr.toNat → exec (.rdTable f) s = .next (answeredError s 4)) ∧
    ((Instr.rdTable f).wellFormed = true → f.addr.toNat < s.cfg.N → s.loadPtr ≤ f.addr.toNat →
      exec (.rdTable f) s = .next (answeredError s 7))

/-- `RD_NONCE` and `RD_RESULT` (rules R125, R126): the register, or `E_NODATA` while `DONE = 0`. -/
def Obligations.RdNonceAndRdResultAnswer : Prop :=
  ∀ (f : Fields) (s : State),
    ((Instr.rdNonce f).wellFormed = true → s.done = true → ∀ v, s.nonce = some v →
      exec (.rdNonce f) s = .next (answeredOk s v)) ∧
    ((Instr.rdNonce f).wellFormed = true → s.done = false → exec (.rdNonce f) s = .next (answeredError s 7)) ∧
    ((Instr.rdNonce f).wellFormed = false → exec (.rdNonce f) s = .next (answeredError s 2)) ∧
    ((Instr.rdResult f).wellFormed = true → s.done = true → ∀ v, s.result = some v →
      exec (.rdResult f) s = .next (answeredOk s v)) ∧
    ((Instr.rdResult f).wellFormed = true → s.done = false → exec (.rdResult f) s = .next (answeredError s 7)) ∧
    ((Instr.rdResult f).wellFormed = false → exec (.rdResult f) s = .next (answeredError s 2))

/-- `RD_IDX addr` (rule R127): the register zero-extended; the address check comes before the no-value check. -/
def Obligations.RdIdxReadsTheTrace : Prop :=
  ∀ (f : Fields) (s : State),
    ((Instr.rdIdx f).wellFormed = true → f.addr.toNat < 10 → s.done = true →
      ∀ v : IndexWord, s.idx[f.addr.toNat]? = some (some v) →
        exec (.rdIdx f) s = .next (answeredOk s (BitVec.ofNat 256 v.toNat))) ∧
    ((Instr.rdIdx f).wellFormed = false → exec (.rdIdx f) s = .next (answeredError s 2)) ∧
    ((Instr.rdIdx f).wellFormed = true → 10 ≤ f.addr.toNat → exec (.rdIdx f) s = .next (answeredError s 4)) ∧
    ((Instr.rdIdx f).wellFormed = true → f.addr.toNat < 10 → s.done = false →
      exec (.rdIdx f) s = .next (answeredError s 7))

/-- `RD_BEST_NONCE` and `RD_BEST_RESULT` (rules R129, R130): the register, or `E_NODATA` while `BEST_VALID = 0`. -/
def Obligations.RdBestAnswersTheProof : Prop :=
  ∀ (f : Fields) (s : State),
    ((Instr.rdBestNonce f).wellFormed = true → s.bestValid = true → ∀ v, s.bestNonce = some v →
      exec (.rdBestNonce f) s = .next (answeredOk s v)) ∧
    ((Instr.rdBestNonce f).wellFormed = true → s.bestValid = false →
      exec (.rdBestNonce f) s = .next (answeredError s 7)) ∧
    ((Instr.rdBestNonce f).wellFormed = false → exec (.rdBestNonce f) s = .next (answeredError s 2)) ∧
    ((Instr.rdBestResult f).wellFormed = true → s.bestValid = true → ∀ v, s.bestResult = some v →
      exec (.rdBestResult f) s = .next (answeredOk s v)) ∧
    ((Instr.rdBestResult f).wellFormed = true → s.bestValid = false →
      exec (.rdBestResult f) s = .next (answeredError s 7)) ∧
    ((Instr.rdBestResult f).wellFormed = false → exec (.rdBestResult f) s = .next (answeredError s 2))

/-! ## Lane steps -/

/-- `L_CHECK` (rule R142): on to `FETCH` while `STOP = 0`; with `STOP = 1` the lane exits, and the last lane to exit ends the run in
the same step. That a lane keeps what it holds is notes/assumptions/16.md. -/
def Obligations.LaneCheckTestsStop : Prop :=
  ∀ (s : State) (l : Nat) (x : Lane) (es : List Event), s.agenda = .lane l :: es → s.phase = .searching →
    s.lanes[l]? = some x → x.state = .check →
    (s.stop = false → Machine.step s = .next { s with agenda := es, lanes := s.lanes.set l { x with state := .fetch } }) ∧
    (s.stop = true → (∃ m y, m ≠ l ∧ s.lanes[m]? = some y ∧ y.state ≠ .exited) →
      Machine.step s = .next { s with agenda := es, lanes := s.lanes.set l { x with state := .exited } }) ∧
    (s.stop = true → (∀ m y, m ≠ l → s.lanes[m]? = some y → y.state = .exited) →
      Machine.step s = .next { s with
        agenda := es, lanes := s.lanes.set l { x with state := .exited }, phase := .stopped })

/-- `L_FETCH` (rule R143): the lane gets the cursor before the increment, in the same indivisible step. -/
def Obligations.LaneFetchDrawsTheCursor : Prop :=
  ∀ (s : State) (l : Nat) (x : Lane) (es : List Event), s.agenda = .lane l :: es → s.phase = .searching →
    s.lanes[l]? = some x → x.state = .fetch →
    Machine.step s = .next { s with
      agenda := es, cursor := BitVec.ofNat 256 ((s.cursor.toNat + 1) % 2 ^ 256)
      lanes := s.lanes.set l { x with state := .eval, nonce := some s.cursor } }

/-- `L_EVAL` (rule R144): the lane's result is the work function's; the host context is not written. -/
def Obligations.LaneEvalComputesTheResult : Prop :=
  ∀ (s : State) (l : Nat) (x : Lane) (es : List Event) (c n : FixedWord) (e : Evaluation),
    s.agenda = .lane l :: es → s.phase = .searching → s.lanes[l]? = some x → x.state = .eval → s.commit = some c →
    x.nonce = some n → evaluate s.cfg s.table c n = some e →
    Machine.step s = .next { s with
      agenda := es, lanes := s.lanes.set l { x with state := .publish, result := some e.result } }

/-- `L_PUBLISH` (rule R145): the whole critical section, in every case. -/
def Obligations.LanePublishKeepsTheSmaller : Prop :=
  ∀ (s : State) (l : Nat) (x : Lane) (es : List Event) (n r t : FixedWord), s.agenda = .lane l :: es →
    s.phase = .searching → s.lanes[l]? = some x → x.state = .publish → x.nonce = some n → x.result = some r →
    s.target = some t →
    (t.toNat < r.toNat →
      Machine.step s = .next { s with agenda := es, lanes := s.lanes.set l ⟨.check, none, none⟩ }) ∧
    (r.toNat ≤ t.toNat → s.bestValid = false →
      Machine.step s = .next { s with
        agenda := es, bestNonce := some n, bestResult := some r, bestValid := true, stop := true
        lanes := s.lanes.set l ⟨.check, none, none⟩ }) ∧
    (∀ b, r.toNat ≤ t.toNat → s.bestValid = true → s.bestResult = some b → r.toNat < b.toNat →
      Machine.step s = .next { s with
        agenda := es, bestNonce := some n, bestResult := some r, lanes := s.lanes.set l ⟨.check, none, none⟩ }) ∧
    (∀ b, r.toNat ≤ t.toNat → s.bestValid = true → s.bestResult = some b → b.toNat ≤ r.toNat →
      Machine.step s = .next { s with agenda := es, lanes := s.lanes.set l ⟨.check, none, none⟩ })

/-! ## The work function -/

/-- `evaluate` (rule R106), written out: coefficients, Horner's scheme modulo `2^256`, remainder modulo `N`, XOR fold, and the
trace; over a full table it always yields a result. -/
def Obligations.EvaluateIsTheFoldedWorkFunction : Prop :=
  ∀ (cfg : Config) (T : Memory) (w : Nat → FixedWord) (c n q0 q1 q2 q3 q4 : FixedWord),
    cfg.Q = [q0, q1, q2, q3, q4] → (∀ i < cfg.N, Memory.read T i = some (w i)) →
    let index := fun p : FixedWord =>
      (((((n % q4 + 1) * (c % p) + (n % q3 + 1)) * (c % p) + (n % q2 + 1)) * (c % p) + (n % q1 + 1)) * (c % p) +
        (n % q0 + 1)).toNat % cfg.N
    evaluate cfg T c n = some
      { result := (cfg.P.map index).foldl (fun acc i => acc ^^^ w i) c
        idx := (cfg.P.map index).map (BitVec.ofNat 32) }

/-- Stage COEF (rule R101): five coefficients, `coeff[j] = (n mod Q[j]) + 1` as integers, between 1 and `Q[j]`. -/
def Obligations.CoefficientsNeverWrap : Prop :=
  ∀ (cfg : Config) (n : FixedWord), (coefficients cfg n).length = 5 ∧
    ∀ (j : Nat) (v q : FixedWord), (coefficients cfg n)[j]? = some v → cfg.Q[j]? = some q →
      v.toNat = n.toNat % q.toNat + 1 ∧ 1 ≤ v.toNat ∧ v.toNat ≤ q.toNat

/-- Horner's scheme equals the polynomial modulo `2^256` (rule R103), and for a capacity `2^m` the index is that of the
unreduced integer (rule R110). -/
def Obligations.PowerOfTwoCapacityIgnoresTheWrap : Prop :=
  ∀ x c0 c1 c2 c3 c4 : FixedWord,
    horner x [c0, c1, c2, c3, c4] = c4 * x ^ 4 + c3 * x ^ 3 + c2 * x ^ 2 + c1 * x + c0 ∧
    ∀ (cfg : Config) (m : Nat), cfg.N = 2 ^ m →
      tableIndex cfg (horner x [c0, c1, c2, c3, c4]) =
        (c4.toNat * x.toNat ^ 4 + c3.toNat * x.toNat ^ 3 + c2.toNat * x.toNat ^ 2 + c1.toNat * x.toNat + c0.toNat) %
          2 ^ m

/-- The no-wrap envelope (rule R109): with every modulus at most `B <= 2^51` the polynomial value is the true integer value,
at most `B^5`. -/
def Obligations.SmallModuliNeverWrap : Prop :=
  ∀ (cfg : Config) (B : Nat) (c n p k0 k1 k2 k3 k4 : FixedWord), (∀ m ∈ cfg.P ++ cfg.Q, m.toNat ≤ B) → B ≤ 2 ^ 51 →
    p ∈ cfg.P → coefficients cfg n = [k0, k1, k2, k3, k4] →
    (horner (evalPoint c p) (coefficients cfg n)).toNat =
        k4.toNat * (c.toNat % p.toNat) ^ 4 + k3.toNat * (c.toNat % p.toNat) ^ 3 + k2.toNat * (c.toNat % p.toNat) ^ 2 +
          k1.toNat * (c.toNat % p.toNat) + k0.toNat ∧
      (horner (evalPoint c p) (coefficients cfg n)).toNat ≤ B ^ 5

/-- The fold does not depend on the order of the rounds (rule R105, corner case b). -/
def Obligations.FoldOrderIsIrrelevant : Prop :=
  ∀ (T : Memory) (acc : FixedWord) (is js : List Nat), is.Perm js → foldTable T acc is = foldTable T acc js

/-- With `COMMIT = 0` the result is 0 for every nonce, in every configuration and over every table (rules R84, R102). -/
def Obligations.ZeroCommitmentGivesZero : Prop :=
  ∀ (cfg : Config) (T : Memory) (n : FixedWord) (e : Evaluation), evaluate cfg T 0 n = some e → e.result = 0

/-! ## Errors and answers -/

/-- A command fails exactly when the table of rule R172 says so, with the first code in the order of rule R173; it then changes
nothing but its sticky bit and its answer (rule R170), and otherwise it is answered `OK`. -/
def Obligations.ErrorsAreThoseOfTheTable : Prop :=
  ∀ (s : State) (w : CommandWord) (es : List Event), s.agenda = .command w :: es →
    (∀ code, wordError w s = some code → Machine.step s = .next (answeredError { s with agenda := es } code)) ∧
    (Inv s → wordError w s = none → ∃ (t : State) (d : FixedWord), Machine.step s = .next t ∧
      t.responses = s.responses ++ [responseWord 0x00 t.flagsByte d])

/-- Exactly one response per command and none for any other item (rule R68), in the format of rule R61: 48 zero bits, the flags
byte of the state after the command, a code of at most 7, and data 0 with every error. -/
def Obligations.OneResponsePerCommand : Prop :=
  ∀ (s t : State) (e : Event) (es : List Event), s.agenda = e :: es → Machine.step s = .next t →
    t.agenda = es ∧
    ((∀ w, e ≠ .command w) → t.responses = s.responses) ∧
    (∀ w, e = .command w → ∃ r : ResponseWord, t.responses = s.responses ++ [r] ∧ r.extractLsb' 264 48 = 0 ∧
      r.extractLsb' 256 8 = t.flagsByte ∧ (r.extractLsb' 312 8).toNat ≤ 7 ∧
      (r.extractLsb' 312 8 ≠ 0 → r.extractLsb' 0 256 = 0))

/-- A read command changes nothing but the response channel, and a sticky bit only when it fails (rule R45). -/
def Obligations.ReadsHaveNoSideEffect : Prop :=
  ∀ (i : Instr) (s t : State), isRead i = true → exec i s = .next t →
    ∃ (r : ResponseWord) (e : BitVec 7), t = { s with err := e, responses := s.responses ++ [r] } ∧
      (r.extractLsb' 312 8 = 0 → e = s.err)

/-! ## The whole block -/

/-- Every step keeps the invariants of rule R28, from every state that meets them. -/
def Obligations.StepKeepsInvariants : Prop :=
  ∀ s t : State, Inv s → Machine.step s = .next t → Inv t

/-- The invariants hold after reset, in every configuration and with anything on the agenda. -/
def Obligations.InvariantsHoldAfterReset : Prop :=
  ∀ (c : Config) (es : List Event), Inv { State.resetOf c with agenda := es } ∧
    NothingLost { State.resetOf c with agenda := es } ∧ NoRepeat { State.resetOf c with agenda := es } ∧ Inv State.reset

/-- No step stops: from every state that meets the invariants, whatever comes next, there is a next state. No register without a
value is ever used (rules R12, R179). -/
def Obligations.NoStepEverStops : Prop := ∀ s : State, Inv s → ∃ t, Machine.step s = .next t

/-- What changes `PHASE` (rule R13), from every state. -/
def Obligations.PhaseChangesOnlyByRule : Prop :=
  ∀ s t : State, Machine.step s = .next t → t.phase ≠ s.phase →
    (∃ e es, s.agenda = e :: es ∧ resets e = true ∧ t.phase = .loading) ∨
    (s.phase = .loading ∧ t.phase = .armed ∧
      ∃ es, s.agenda = .command (encode (.arm ⟨0, 0, 0⟩)) :: es) ∨
    (s.phase = .armed ∧ t.phase = .searching ∧ ∃ es, s.agenda = .command (encode (.search ⟨0, 0, 0⟩)) :: es) ∨
    (s.phase = .searching ∧ t.phase = .stopped ∧ (∀ x ∈ t.lanes, x.state = .exited) ∧
      ∃ l es x, s.agenda = .lane l :: es ∧ s.lanes[l]? = some x ∧ x.state = .check ∧ s.stop = true)

/-- The constants never change (rule R11), and from `ARM` until reset neither do the table, `LOAD_PTR`, the commitment, the
target and their valid bits (rules R14, R15, R46). -/
def Obligations.ConfigurationIsFrozen : Prop :=
  ∀ s t : State, Machine.step s = .next t → t.cfg = s.cfg ∧
    (s.phase ≠ .loading → (∀ e es, s.agenda = e :: es → resets e = false) →
      t.phase ≠ .loading ∧ t.table = s.table ∧ t.loadPtr = s.loadPtr ∧ t.commit = s.commit ∧ t.cValid = s.cValid ∧
        t.target = s.target ∧ t.tValid = s.tValid)

/-- Within a run the stop flag is never cleared, and an accepted proof is replaced only by a strictly smaller result (rule
R18). -/
def Obligations.StopAndBestOnlyImprove : Prop :=
  ∀ s t : State, Machine.step s = .next t → (s.phase = .searching ∨ s.phase = .stopped) →
    (∀ e es, s.agenda = e :: es → resets e = false) →
    (s.stop = true → t.stop = true) ∧
    (s.bestValid = true → t.bestValid = true ∧ ∀ b, s.bestResult = some b →
      (t.bestNonce = s.bestNonce ∧ t.bestResult = some b) ∨ ∃ b', t.bestResult = some b' ∧ b'.toNat < b.toNat)

/-- A lane step touches only its own lane, the cursor, the stop flag, the best proof and `PHASE`: no error bit, no response, no
register of the host context, no configuration register, no other lane (rules R17, R179, R185). -/
def Obligations.LaneStepsTouchOnlyTheRun : Prop :=
  ∀ (s t : State) (l : Nat) (es : List Event), s.agenda = .lane l :: es → Machine.step s = .next t →
    t = { s with
      agenda := es, phase := t.phase, cursor := t.cursor, stop := t.stop, bestValid := t.bestValid
      bestNonce := t.bestNonce, bestResult := t.bestResult, lanes := t.lanes } ∧
    t.lanes.length = s.lanes.length ∧ ∀ m, m ≠ l → t.lanes[m]? = s.lanes[m]?

/-- A lane step, once enabled, stays enabled until that lane steps or a reset happens, from every state (rule R147): so weak and
strong fairness coincide. -/
def Obligations.EnabledUntilItSteps : Prop :=
  ∀ (s t : State) (l : Nat), s.laneEnabled l = true → (∀ e es, s.agenda = e :: es → e ≠ .lane l ∧ resets e = false) →
    Machine.step s = .next t → t.laneEnabled l = true

/-- `L_EVAL` commutes with every step of every other agent (rule R144). -/
def Obligations.LaneEvalCommutes : Prop :=
  ∀ (s : State) (l : Nat) (x : Lane) (e : Event) (es : List Event), Inv s → s.phase = .searching →
    s.lanes[l]? = some x → x.state = .eval → e ≠ .lane l →
    Sys2Proof.core.run 2 ({ s with agenda := .lane l :: e :: es } : State) =
      Sys2Proof.core.run 2 ({ s with agenda := e :: .lane l :: es } : State)

/-- No duplication, no skip (rule R150): the nonces issued in any `k` steps of a run are the cursor's value and its successors, in
order, and fewer than `2^256` of them are all different. -/
def Obligations.NoncesAreIssuedInOrder : Prop :=
  ∀ (s t : State) (k : Nat), s.phase = .searching → (∀ e ∈ s.agenda, resets e = false) →
    Sys2Proof.core.run k s = .next t →
    issued k s = (List.range (issued k s).length).map (fun i => s.cursor + BitVec.ofNat 256 i) ∧
      t.cursor = s.cursor + BitVec.ofNat 256 (issued k s).length ∧
      ((issued k s).length < 2 ^ 256 → (issued k s).Nodup)

/-- Every step keeps the promise that each nonce drawn is in a lane's hand or settled (rules R149, R152). -/
def Obligations.NoDrawnNonceIsLost : Prop :=
  ∀ s t : State, Inv s → NothingLost s → Machine.step s = .next t → NothingLost t

/-- Every step that does not wrap the cursor keeps the nonces in hand drawn and pairwise different, and the accepted nonce
drawn (rules R50, R150). -/
def Obligations.NoNonceIsHeldTwice : Prop :=
  ∀ s t : State, Inv s → NoRepeat s → s.cursor + 1 ≠ s.cfg.cursorInit → Machine.step s = .next t → NoRepeat t

/-- The final proof is the minimum (rule R149), for every configuration and every schedule of commands and lane steps from reset
of fewer than `2^256` steps: when the block has stopped, no drawn nonce has a hit smaller than the accepted result, a drawn
hit means a proof was accepted, and the accepted pair is a drawn nonce with its own result. -/
def Obligations.FinalProofIsTheMinimum : Prop :=
  ∀ (c : Config) (es : List Event) (k : Nat) (s : State) (t : FixedWord), k < 2 ^ 256 →
    Sys2Proof.core.run k ({ State.resetOf c with agenda := es } : State) = .next s → s.phase = .stopped →
    s.target = some t →
    (∀ n r, drawn s n → ResultOf s n r → r.toNat ≤ t.toNat →
      s.bestValid = true ∧ ∃ b, s.bestResult = some b ∧ b.toNat ≤ r.toNat) ∧
    (s.bestValid = true → ∃ n b, s.bestNonce = some n ∧ s.bestResult = some b ∧ drawn s n ∧ ResultOf s n b ∧
      b.toNat ≤ t.toNat)

/-- Cooperative cancellation (rule R152): once `STOP` is 1 every lane step of an active lane takes exactly one from that lane's
remaining steps (`CHECK` 1, `PUBLISH` 2, `EVAL` 3, `FETCH` 4), nothing but a reset gives any back, at most `4 * W` are left,
and the phase is `STOPPED` exactly when none is. -/
def Obligations.RunDrainsAfterStop : Prop :=
  ∀ (s t : State) (e : Event) (es : List Event), Inv s → s.phase = .searching → s.stop = true →
    s.agenda = e :: es → resets e = false → Machine.step s = .next t →
    drainSteps s ≤ 4 * s.cfg.W ∧ t.stop = true ∧ (t.phase = .stopped ↔ drainSteps t = 0) ∧
    (t.phase = .stopped ∨ t.phase = .searching) ∧
    (∀ l x, e = .lane l → s.lanes[l]? = some x → x.state.active = true →
      drainSteps t + 1 = drainSteps s ∧
        ∃ y, t.lanes[l]? = some y ∧ stepsLeft y.state + 1 = stepsLeft x.state) ∧
    ((∀ l x, e = .lane l → s.lanes[l]? = some x → x.state.active = false) → drainSteps t = drainSteps s)

/-- Under weak fairness the run ends (rules R147, R152): once `STOP` is 1, every weakly fair schedule with no reset in it reaches
`STOPPED`, after at most `4 * W` lane steps, whatever commands the host sends and whenever it sends them. So does every list of items
that chooses each lane as often as it has steps left (`CHECK` 1, `PUBLISH` 2, `EVAL` 3, `FETCH` 4, `EXITED` 0). How an unending
execution is written is the model's choice, notes/assumptions/18.md. -/
def Obligations.FairScheduleStops : Prop :=
  ∀ s : State, Inv s → s.phase = .searching → s.stop = true →
    (∀ sched : Schedule, WeaklyFair s sched → (∀ k e, sched k = some e → resets e = false) →
      ∃ k t, stateAt s sched k = some t ∧ t.phase = .stopped ∧ laneStepsTaken s sched k ≤ 4 * s.cfg.W) ∧
    ∀ es : List Event, (∀ e ∈ es, resets e = false) →
      (∀ l x, s.lanes[l]? = some x → stepsLeft x.state ≤ es.countP (fun e => decide (e = .lane l))) →
      ∃ t : State, Sys2Proof.core.run es.length ({ s with agenda := es } : State) = .next t ∧ t.phase = .stopped

/-- After `STOP` is set at most one nonce is drawn for each lane that was in `FETCH` at that moment (rule R152). -/
def Obligations.DrawsAfterStopAreBounded : Prop :=
  ∀ (s t : State) (k : Nat), s.phase = .searching → s.stop = true → (∀ e ∈ s.agenda, resets e = false) →
    Sys2Proof.core.run k s = .next t →
    (issued k s).length ≤ s.lanes.countP (fun x => decide (x.state = .fetch))

/-- The independent check of the reported proof (rule R108, corner case c): in `STOPPED`, `EVAL BEST_NONCE` answers
`BEST_RESULT` and sets `HIT`. -/
def Obligations.EvalVerifiesTheProof : Prop :=
  ∀ (s : State) (n r : FixedWord), Inv s → s.phase = .stopped → s.bestNonce = some n → s.bestResult = some r →
    ∃ t, exec (.eval ⟨0, 0, n⟩) s = .next t ∧ t.result = some r ∧ t.nonce = some n ∧ t.done = true ∧ t.hit = true ∧
      t.responses = s.responses ++ [responseWord 0x00 t.flagsByte r]

/-- The boot sequence (rule R192): after reset, the `N` table words in index order, the commitment, the target and `ARM` are all
answered `OK` and leave the block armed with exactly these values. -/
def Obligations.BootSequenceArms : Prop :=
  ∀ (cfg : Config) (ws : List FixedWord) (c t : FixedWord), ws.length = cfg.N →
    ∃ u : State,
      Sys2Proof.core.run (cfg.N + 3)
        ({ State.resetOf cfg with agenda := (bootSequence ws c t).map .command } : State) = .next u ∧
      u.phase = .armed ∧ u.loadPtr = cfg.N ∧ (∀ i, i < cfg.N → Memory.read u.table i = ws[i]?) ∧ u.commit = some c ∧
      u.target = some t ∧ u.err = 0 ∧ u.agenda = [] ∧ u.responses.length = cfg.N + 3 ∧
      ∀ r ∈ u.responses, r.extractLsb' 312 8 = 0

/-! ## Duties of the host -/

/-- The messages the host hashes, byte by byte, and how a digest is read (rules R193, R194). Table word `i` is the digest of the
seed followed by the 32 bytes of `i`; the header message is the 32 bytes of each field in declaration order, 160 bytes in all; each
group of 32 bytes is most significant byte first, and so is a digest read as a word (the choices of decisions D26 and D27, which
the model follows, notes/assumptions/14.md). -/
def Obligations.HashedMessagesAreExact : Prop :=
  (∀ (hash : List Byte → Vector Byte 32) (seed : List Byte) (count i : Nat), i < count →
    (generateTable hash seed count)[i]? = some (digestWord (hash (bufferMessage seed i)))) ∧
  (∀ (seed : List Byte) (i : Nat), (bufferMessage seed i).length = seed.length + 32 ∧
    (bufferMessage seed i).take seed.length = seed ∧
    ∀ b < 32, (bufferMessage seed i)[seed.length + b]? = some ((BitVec.ofNat 256 i).extractLsb' (248 - 8 * b) 8)) ∧
  (∀ h : PuzzleHeader, (headerMessage h).length = 160 ∧
    ∀ (j b : Nat) (v : FixedWord), b < 32 →
      [h.solverIdentity, h.blockNumber, h.blockHash, h.targetField, h.height][j]? = some v →
      (headerMessage h)[32 * j + b]? = some (v.extractLsb' (248 - 8 * b) 8)) ∧
  (∀ h h' : PuzzleHeader, headerMessage h = headerMessage h' → h = h') ∧
  (∀ (hash : List Byte → Vector Byte 32) (h : PuzzleHeader), commitmentOf hash h = digestWord (hash (headerMessage h))) ∧
  ∀ (digest : Vector Byte 32) (b : Nat), b < 32 →
    digest.toList[b]? = some ((digestWord digest).extractLsb' (248 - 8 * b) 8)
end

