-- ==== Sys2Proof/Laws/Memory.lean ====
section
/-!
SUPPORT. The laws of the table memory: a read after a write, and the canonical form every operation keeps.
-/

namespace Sys2Proof.Machine

@[simp] theorem Memory.read_nil (a : Nat) : Memory.read [] a = none := rfl

theorem Memory.read_write_same (m : Memory) (a : Nat) (v : FixedWord) :
    Memory.read (Memory.write m a v) a = some v := by
  induction m with
  | nil => simp [Memory.write, Memory.read]
  | cons c m ih =>
    obtain ⟨b, w⟩ := c
    rcases Nat.lt_trichotomy a b with h | h | h
    · simp [Memory.write, Memory.read, h]
    · simp [Memory.write, Memory.read, h]
    · have h1 : ¬ a < b := by omega
      have h2 : a ≠ b := by omega
      simp [Memory.write, Memory.read, h1, h2, ih]

theorem Memory.read_write_other (m : Memory) {a b : Nat} (v : FixedWord) (h : b ≠ a) :
    Memory.read (Memory.write m a v) b = Memory.read m b := by
  induction m with
  | nil => simp [Memory.write, Memory.read, h]
  | cons c m ih =>
    obtain ⟨d, w⟩ := c
    rcases Nat.lt_trichotomy a d with h' | h' | h'
    · simp [Memory.write, Memory.read, h', h]
    · subst h'; simp [Memory.write, Memory.read, h]
    · have h1 : ¬ a < d := by omega
      have h2 : a ≠ d := by omega
      simp [Memory.write, Memory.read, h1, h2, ih]

/-- A read of one cell after a write to another or to the same one (rule R44). -/
theorem Memory.read_write (m : Memory) (a b : Nat) (v : FixedWord) :
    Memory.read (Memory.write m a v) b = if b = a then some v else Memory.read m b := by
  split
  · subst b; exact Memory.read_write_same m a v
  · exact Memory.read_write_other m v ‹_›

/-- Every address listed after a write was listed before or is the one written. -/
theorem Memory.mem_write {m : Memory} {a : Nat} {v : FixedWord} {x : Nat × FixedWord}
    (h : x ∈ Memory.write m a v) : x = (a, v) ∨ x ∈ m := by
  induction m with
  | nil => simpa [Memory.write] using h
  | cons c m ih =>
    obtain ⟨b, w⟩ := c
    unfold Memory.write at h
    split at h
    · simpa using h
    · split at h
      · rcases List.mem_cons.1 h with h | h
        · exact .inl h
        · exact .inr (List.mem_cons_of_mem _ h)
      · rcases List.mem_cons.1 h with h | h
        · exact .inr (h ▸ List.mem_cons_self)
        · exact (ih h).imp id (List.mem_cons_of_mem _)

/-- The memory after reset has the canonical form. -/
theorem Memory.wf_nil : Memory.wf [] := List.Pairwise.nil

/-- A write keeps the canonical form. -/
theorem Memory.wf_write {m : Memory} (h : Memory.wf m) (a : Nat) (v : FixedWord) : Memory.wf (Memory.write m a v) := by
  induction m with
  | nil => simp [Memory.wf, Memory.write]
  | cons c m ih =>
    obtain ⟨b, w⟩ := c
    obtain ⟨hb, hm⟩ := List.pairwise_cons.1 h
    rcases Nat.lt_trichotomy a b with h' | h' | h'
    · simp only [Memory.write, h', if_true]
      refine List.pairwise_cons.2 ⟨fun x hx => ?_, h⟩
      rcases List.mem_cons.1 hx with rfl | hx
      · exact h'
      · exact Nat.lt_trans h' (hb x hx)
    · subst h'
      simp only [Memory.write, Nat.lt_irrefl, if_false, if_true]
      exact List.pairwise_cons.2 ⟨hb, hm⟩
    · have h1 : ¬ a < b := by omega
      have h2 : a ≠ b := by omega
      simp only [Memory.write, h1, h2, if_false]
      refine List.pairwise_cons.2 ⟨fun x hx => ?_, ih hm⟩
      rcases Memory.mem_write hx with rfl | hx
      · exact h'
      · exact hb x hx

/-- A cell that is listed reads as some value. -/
theorem Memory.read_isSome_iff (m : Memory) (a : Nat) : (Memory.read m a).isSome ↔ a ∈ m.map Prod.fst := by
  induction m with
  | nil => simp
  | cons c m ih =>
    obtain ⟨b, w⟩ := c
    by_cases h : a = b <;> simp [Memory.read, h, ih]

end Sys2Proof.Machine
end

