-- ==== Sys2Proof/Laws/State.lean ====
section
/-!
SUPPORT. What each named update of the state does to each field: one lemma per field and update, so that no proof unfolds a
record update.
-/

namespace Sys2Proof.Machine

@[simp] theorem State.setAgenda_cfg (s : State) (es : List Event) : (s.setAgenda es).cfg = s.cfg := rfl
@[simp] theorem State.setAgenda_phase (s : State) (es : List Event) : (s.setAgenda es).phase = s.phase := rfl
@[simp] theorem State.setAgenda_commit (s : State) (es : List Event) : (s.setAgenda es).commit = s.commit := rfl
@[simp] theorem State.setAgenda_cValid (s : State) (es : List Event) : (s.setAgenda es).cValid = s.cValid := rfl
@[simp] theorem State.setAgenda_target (s : State) (es : List Event) : (s.setAgenda es).target = s.target := rfl
@[simp] theorem State.setAgenda_tValid (s : State) (es : List Event) : (s.setAgenda es).tValid = s.tValid := rfl
@[simp] theorem State.setAgenda_table (s : State) (es : List Event) : (s.setAgenda es).table = s.table := rfl
@[simp] theorem State.setAgenda_loadPtr (s : State) (es : List Event) : (s.setAgenda es).loadPtr = s.loadPtr := rfl
@[simp] theorem State.setAgenda_nonce (s : State) (es : List Event) : (s.setAgenda es).nonce = s.nonce := rfl
@[simp] theorem State.setAgenda_result (s : State) (es : List Event) : (s.setAgenda es).result = s.result := rfl
@[simp] theorem State.setAgenda_idx (s : State) (es : List Event) : (s.setAgenda es).idx = s.idx := rfl
@[simp] theorem State.setAgenda_done (s : State) (es : List Event) : (s.setAgenda es).done = s.done := rfl
@[simp] theorem State.setAgenda_hit (s : State) (es : List Event) : (s.setAgenda es).hit = s.hit := rfl
@[simp] theorem State.setAgenda_cursor (s : State) (es : List Event) : (s.setAgenda es).cursor = s.cursor := rfl
@[simp] theorem State.setAgenda_stop (s : State) (es : List Event) : (s.setAgenda es).stop = s.stop := rfl
@[simp] theorem State.setAgenda_bestValid (s : State) (es : List Event) : (s.setAgenda es).bestValid = s.bestValid := rfl
@[simp] theorem State.setAgenda_bestNonce (s : State) (es : List Event) : (s.setAgenda es).bestNonce = s.bestNonce := rfl
@[simp] theorem State.setAgenda_bestResult (s : State) (es : List Event) : (s.setAgenda es).bestResult = s.bestResult := rfl
@[simp] theorem State.setAgenda_lanes (s : State) (es : List Event) : (s.setAgenda es).lanes = s.lanes := rfl
@[simp] theorem State.setAgenda_err (s : State) (es : List Event) : (s.setAgenda es).err = s.err := rfl
@[simp] theorem State.setAgenda_agenda (s : State) (es : List Event) : (s.setAgenda es).agenda = es := rfl
@[simp] theorem State.setAgenda_responses (s : State) (es : List Event) : (s.setAgenda es).responses = s.responses := rfl

@[simp] theorem State.pushResponse_cfg (s : State) (w : ResponseWord) : (s.pushResponse w).cfg = s.cfg := rfl
@[simp] theorem State.pushResponse_phase (s : State) (w : ResponseWord) : (s.pushResponse w).phase = s.phase := rfl
@[simp] theorem State.pushResponse_commit (s : State) (w : ResponseWord) : (s.pushResponse w).commit = s.commit := rfl
@[simp] theorem State.pushResponse_cValid (s : State) (w : ResponseWord) : (s.pushResponse w).cValid = s.cValid := rfl
@[simp] theorem State.pushResponse_target (s : State) (w : ResponseWord) : (s.pushResponse w).target = s.target := rfl
@[simp] theorem State.pushResponse_tValid (s : State) (w : ResponseWord) : (s.pushResponse w).tValid = s.tValid := rfl
@[simp] theorem State.pushResponse_table (s : State) (w : ResponseWord) : (s.pushResponse w).table = s.table := rfl
@[simp] theorem State.pushResponse_loadPtr (s : State) (w : ResponseWord) : (s.pushResponse w).loadPtr = s.loadPtr := rfl
@[simp] theorem State.pushResponse_nonce (s : State) (w : ResponseWord) : (s.pushResponse w).nonce = s.nonce := rfl
@[simp] theorem State.pushResponse_result (s : State) (w : ResponseWord) : (s.pushResponse w).result = s.result := rfl
@[simp] theorem State.pushResponse_idx (s : State) (w : ResponseWord) : (s.pushResponse w).idx = s.idx := rfl
@[simp] theorem State.pushResponse_done (s : State) (w : ResponseWord) : (s.pushResponse w).done = s.done := rfl
@[simp] theorem State.pushResponse_hit (s : State) (w : ResponseWord) : (s.pushResponse w).hit = s.hit := rfl
@[simp] theorem State.pushResponse_cursor (s : State) (w : ResponseWord) : (s.pushResponse w).cursor = s.cursor := rfl
@[simp] theorem State.pushResponse_stop (s : State) (w : ResponseWord) : (s.pushResponse w).stop = s.stop := rfl
@[simp] theorem State.pushResponse_bestValid (s : State) (w : ResponseWord) : (s.pushResponse w).bestValid = s.bestValid := rfl
@[simp] theorem State.pushResponse_bestNonce (s : State) (w : ResponseWord) : (s.pushResponse w).bestNonce = s.bestNonce := rfl
@[simp] theorem State.pushResponse_bestResult (s : State) (w : ResponseWord) : (s.pushResponse w).bestResult = s.bestResult := rfl
@[simp] theorem State.pushResponse_lanes (s : State) (w : ResponseWord) : (s.pushResponse w).lanes = s.lanes := rfl
@[simp] theorem State.pushResponse_err (s : State) (w : ResponseWord) : (s.pushResponse w).err = s.err := rfl
@[simp] theorem State.pushResponse_agenda (s : State) (w : ResponseWord) : (s.pushResponse w).agenda = s.agenda := rfl
@[simp] theorem State.pushResponse_responses (s : State) (w : ResponseWord) : (s.pushResponse w).responses = s.responses ++ [w] := rfl

@[simp] theorem State.setErr_cfg (s : State) (e : BitVec 7) : (s.setErr e).cfg = s.cfg := rfl
@[simp] theorem State.setErr_phase (s : State) (e : BitVec 7) : (s.setErr e).phase = s.phase := rfl
@[simp] theorem State.setErr_commit (s : State) (e : BitVec 7) : (s.setErr e).commit = s.commit := rfl
@[simp] theorem State.setErr_cValid (s : State) (e : BitVec 7) : (s.setErr e).cValid = s.cValid := rfl
@[simp] theorem State.setErr_target (s : State) (e : BitVec 7) : (s.setErr e).target = s.target := rfl
@[simp] theorem State.setErr_tValid (s : State) (e : BitVec 7) : (s.setErr e).tValid = s.tValid := rfl
@[simp] theorem State.setErr_table (s : State) (e : BitVec 7) : (s.setErr e).table = s.table := rfl
@[simp] theorem State.setErr_loadPtr (s : State) (e : BitVec 7) : (s.setErr e).loadPtr = s.loadPtr := rfl
@[simp] theorem State.setErr_nonce (s : State) (e : BitVec 7) : (s.setErr e).nonce = s.nonce := rfl
@[simp] theorem State.setErr_result (s : State) (e : BitVec 7) : (s.setErr e).result = s.result := rfl
@[simp] theorem State.setErr_idx (s : State) (e : BitVec 7) : (s.setErr e).idx = s.idx := rfl
@[simp] theorem State.setErr_done (s : State) (e : BitVec 7) : (s.setErr e).done = s.done := rfl
@[simp] theorem State.setErr_hit (s : State) (e : BitVec 7) : (s.setErr e).hit = s.hit := rfl
@[simp] theorem State.setErr_cursor (s : State) (e : BitVec 7) : (s.setErr e).cursor = s.cursor := rfl
@[simp] theorem State.setErr_stop (s : State) (e : BitVec 7) : (s.setErr e).stop = s.stop := rfl
@[simp] theorem State.setErr_bestValid (s : State) (e : BitVec 7) : (s.setErr e).bestValid = s.bestValid := rfl
@[simp] theorem State.setErr_bestNonce (s : State) (e : BitVec 7) : (s.setErr e).bestNonce = s.bestNonce := rfl
@[simp] theorem State.setErr_bestResult (s : State) (e : BitVec 7) : (s.setErr e).bestResult = s.bestResult := rfl
@[simp] theorem State.setErr_lanes (s : State) (e : BitVec 7) : (s.setErr e).lanes = s.lanes := rfl
@[simp] theorem State.setErr_err (s : State) (e : BitVec 7) : (s.setErr e).err = e := rfl
@[simp] theorem State.setErr_agenda (s : State) (e : BitVec 7) : (s.setErr e).agenda = s.agenda := rfl
@[simp] theorem State.setErr_responses (s : State) (e : BitVec 7) : (s.setErr e).responses = s.responses := rfl

@[simp] theorem State.setPhase_cfg (s : State) (p : Phase) : (s.setPhase p).cfg = s.cfg := rfl
@[simp] theorem State.setPhase_phase (s : State) (p : Phase) : (s.setPhase p).phase = p := rfl
@[simp] theorem State.setPhase_commit (s : State) (p : Phase) : (s.setPhase p).commit = s.commit := rfl
@[simp] theorem State.setPhase_cValid (s : State) (p : Phase) : (s.setPhase p).cValid = s.cValid := rfl
@[simp] theorem State.setPhase_target (s : State) (p : Phase) : (s.setPhase p).target = s.target := rfl
@[simp] theorem State.setPhase_tValid (s : State) (p : Phase) : (s.setPhase p).tValid = s.tValid := rfl
@[simp] theorem State.setPhase_table (s : State) (p : Phase) : (s.setPhase p).table = s.table := rfl
@[simp] theorem State.setPhase_loadPtr (s : State) (p : Phase) : (s.setPhase p).loadPtr = s.loadPtr := rfl
@[simp] theorem State.setPhase_nonce (s : State) (p : Phase) : (s.setPhase p).nonce = s.nonce := rfl
@[simp] theorem State.setPhase_result (s : State) (p : Phase) : (s.setPhase p).result = s.result := rfl
@[simp] theorem State.setPhase_idx (s : State) (p : Phase) : (s.setPhase p).idx = s.idx := rfl
@[simp] theorem State.setPhase_done (s : State) (p : Phase) : (s.setPhase p).done = s.done := rfl
@[simp] theorem State.setPhase_hit (s : State) (p : Phase) : (s.setPhase p).hit = s.hit := rfl
@[simp] theorem State.setPhase_cursor (s : State) (p : Phase) : (s.setPhase p).cursor = s.cursor := rfl
@[simp] theorem State.setPhase_stop (s : State) (p : Phase) : (s.setPhase p).stop = s.stop := rfl
@[simp] theorem State.setPhase_bestValid (s : State) (p : Phase) : (s.setPhase p).bestValid = s.bestValid := rfl
@[simp] theorem State.setPhase_bestNonce (s : State) (p : Phase) : (s.setPhase p).bestNonce = s.bestNonce := rfl
@[simp] theorem State.setPhase_bestResult (s : State) (p : Phase) : (s.setPhase p).bestResult = s.bestResult := rfl
@[simp] theorem State.setPhase_lanes (s : State) (p : Phase) : (s.setPhase p).lanes = s.lanes := rfl
@[simp] theorem State.setPhase_err (s : State) (p : Phase) : (s.setPhase p).err = s.err := rfl
@[simp] theorem State.setPhase_agenda (s : State) (p : Phase) : (s.setPhase p).agenda = s.agenda := rfl
@[simp] theorem State.setPhase_responses (s : State) (p : Phase) : (s.setPhase p).responses = s.responses := rfl

@[simp] theorem State.setCommit_cfg (s : State) (v : FixedWord) : (s.setCommit v).cfg = s.cfg := rfl
@[simp] theorem State.setCommit_phase (s : State) (v : FixedWord) : (s.setCommit v).phase = s.phase := rfl
@[simp] theorem State.setCommit_commit (s : State) (v : FixedWord) : (s.setCommit v).commit = some v := rfl
@[simp] theorem State.setCommit_cValid (s : State) (v : FixedWord) : (s.setCommit v).cValid = true := rfl
@[simp] theorem State.setCommit_target (s : State) (v : FixedWord) : (s.setCommit v).target = s.target := rfl
@[simp] theorem State.setCommit_tValid (s : State) (v : FixedWord) : (s.setCommit v).tValid = s.tValid := rfl
@[simp] theorem State.setCommit_table (s : State) (v : FixedWord) : (s.setCommit v).table = s.table := rfl
@[simp] theorem State.setCommit_loadPtr (s : State) (v : FixedWord) : (s.setCommit v).loadPtr = s.loadPtr := rfl
@[simp] theorem State.setCommit_nonce (s : State) (v : FixedWord) : (s.setCommit v).nonce = s.nonce := rfl
@[simp] theorem State.setCommit_result (s : State) (v : FixedWord) : (s.setCommit v).result = s.result := rfl
@[simp] theorem State.setCommit_idx (s : State) (v : FixedWord) : (s.setCommit v).idx = s.idx := rfl
@[simp] theorem State.setCommit_done (s : State) (v : FixedWord) : (s.setCommit v).done = s.done := rfl
@[simp] theorem State.setCommit_hit (s : State) (v : FixedWord) : (s.setCommit v).hit = s.hit := rfl
@[simp] theorem State.setCommit_cursor (s : State) (v : FixedWord) : (s.setCommit v).cursor = s.cursor := rfl
@[simp] theorem State.setCommit_stop (s : State) (v : FixedWord) : (s.setCommit v).stop = s.stop := rfl
@[simp] theorem State.setCommit_bestValid (s : State) (v : FixedWord) : (s.setCommit v).bestValid = s.bestValid := rfl
@[simp] theorem State.setCommit_bestNonce (s : State) (v : FixedWord) : (s.setCommit v).bestNonce = s.bestNonce := rfl
@[simp] theorem State.setCommit_bestResult (s : State) (v : FixedWord) : (s.setCommit v).bestResult = s.bestResult := rfl
@[simp] theorem State.setCommit_lanes (s : State) (v : FixedWord) : (s.setCommit v).lanes = s.lanes := rfl
@[simp] theorem State.setCommit_err (s : State) (v : FixedWord) : (s.setCommit v).err = s.err := rfl
@[simp] theorem State.setCommit_agenda (s : State) (v : FixedWord) : (s.setCommit v).agenda = s.agenda := rfl
@[simp] theorem State.setCommit_responses (s : State) (v : FixedWord) : (s.setCommit v).responses = s.responses := rfl

@[simp] theorem State.setTarget_cfg (s : State) (v : FixedWord) : (s.setTarget v).cfg = s.cfg := rfl
@[simp] theorem State.setTarget_phase (s : State) (v : FixedWord) : (s.setTarget v).phase = s.phase := rfl
@[simp] theorem State.setTarget_commit (s : State) (v : FixedWord) : (s.setTarget v).commit = s.commit := rfl
@[simp] theorem State.setTarget_cValid (s : State) (v : FixedWord) : (s.setTarget v).cValid = s.cValid := rfl
@[simp] theorem State.setTarget_target (s : State) (v : FixedWord) : (s.setTarget v).target = some v := rfl
@[simp] theorem State.setTarget_tValid (s : State) (v : FixedWord) : (s.setTarget v).tValid = true := rfl
@[simp] theorem State.setTarget_table (s : State) (v : FixedWord) : (s.setTarget v).table = s.table := rfl
@[simp] theorem State.setTarget_loadPtr (s : State) (v : FixedWord) : (s.setTarget v).loadPtr = s.loadPtr := rfl
@[simp] theorem State.setTarget_nonce (s : State) (v : FixedWord) : (s.setTarget v).nonce = s.nonce := rfl
@[simp] theorem State.setTarget_result (s : State) (v : FixedWord) : (s.setTarget v).result = s.result := rfl
@[simp] theorem State.setTarget_idx (s : State) (v : FixedWord) : (s.setTarget v).idx = s.idx := rfl
@[simp] theorem State.setTarget_done (s : State) (v : FixedWord) : (s.setTarget v).done = s.done := rfl
@[simp] theorem State.setTarget_hit (s : State) (v : FixedWord) : (s.setTarget v).hit = s.hit := rfl
@[simp] theorem State.setTarget_cursor (s : State) (v : FixedWord) : (s.setTarget v).cursor = s.cursor := rfl
@[simp] theorem State.setTarget_stop (s : State) (v : FixedWord) : (s.setTarget v).stop = s.stop := rfl
@[simp] theorem State.setTarget_bestValid (s : State) (v : FixedWord) : (s.setTarget v).bestValid = s.bestValid := rfl
@[simp] theorem State.setTarget_bestNonce (s : State) (v : FixedWord) : (s.setTarget v).bestNonce = s.bestNonce := rfl
@[simp] theorem State.setTarget_bestResult (s : State) (v : FixedWord) : (s.setTarget v).bestResult = s.bestResult := rfl
@[simp] theorem State.setTarget_lanes (s : State) (v : FixedWord) : (s.setTarget v).lanes = s.lanes := rfl
@[simp] theorem State.setTarget_err (s : State) (v : FixedWord) : (s.setTarget v).err = s.err := rfl
@[simp] theorem State.setTarget_agenda (s : State) (v : FixedWord) : (s.setTarget v).agenda = s.agenda := rfl
@[simp] theorem State.setTarget_responses (s : State) (v : FixedWord) : (s.setTarget v).responses = s.responses := rfl

@[simp] theorem State.appendTable_cfg (s : State) (v : FixedWord) : (s.appendTable v).cfg = s.cfg := rfl
@[simp] theorem State.appendTable_phase (s : State) (v : FixedWord) : (s.appendTable v).phase = s.phase := rfl
@[simp] theorem State.appendTable_commit (s : State) (v : FixedWord) : (s.appendTable v).commit = s.commit := rfl
@[simp] theorem State.appendTable_cValid (s : State) (v : FixedWord) : (s.appendTable v).cValid = s.cValid := rfl
@[simp] theorem State.appendTable_target (s : State) (v : FixedWord) : (s.appendTable v).target = s.target := rfl
@[simp] theorem State.appendTable_tValid (s : State) (v : FixedWord) : (s.appendTable v).tValid = s.tValid := rfl
@[simp] theorem State.appendTable_table (s : State) (v : FixedWord) : (s.appendTable v).table = Memory.write s.table s.loadPtr v := rfl
@[simp] theorem State.appendTable_loadPtr (s : State) (v : FixedWord) : (s.appendTable v).loadPtr = s.loadPtr + 1 := rfl
@[simp] theorem State.appendTable_nonce (s : State) (v : FixedWord) : (s.appendTable v).nonce = s.nonce := rfl
@[simp] theorem State.appendTable_result (s : State) (v : FixedWord) : (s.appendTable v).result = s.result := rfl
@[simp] theorem State.appendTable_idx (s : State) (v : FixedWord) : (s.appendTable v).idx = s.idx := rfl
@[simp] theorem State.appendTable_done (s : State) (v : FixedWord) : (s.appendTable v).done = s.done := rfl
@[simp] theorem State.appendTable_hit (s : State) (v : FixedWord) : (s.appendTable v).hit = s.hit := rfl
@[simp] theorem State.appendTable_cursor (s : State) (v : FixedWord) : (s.appendTable v).cursor = s.cursor := rfl
@[simp] theorem State.appendTable_stop (s : State) (v : FixedWord) : (s.appendTable v).stop = s.stop := rfl
@[simp] theorem State.appendTable_bestValid (s : State) (v : FixedWord) : (s.appendTable v).bestValid = s.bestValid := rfl
@[simp] theorem State.appendTable_bestNonce (s : State) (v : FixedWord) : (s.appendTable v).bestNonce = s.bestNonce := rfl
@[simp] theorem State.appendTable_bestResult (s : State) (v : FixedWord) : (s.appendTable v).bestResult = s.bestResult := rfl
@[simp] theorem State.appendTable_lanes (s : State) (v : FixedWord) : (s.appendTable v).lanes = s.lanes := rfl
@[simp] theorem State.appendTable_err (s : State) (v : FixedWord) : (s.appendTable v).err = s.err := rfl
@[simp] theorem State.appendTable_agenda (s : State) (v : FixedWord) : (s.appendTable v).agenda = s.agenda := rfl
@[simp] theorem State.appendTable_responses (s : State) (v : FixedWord) : (s.appendTable v).responses = s.responses := rfl

@[simp] theorem State.setContext_cfg (s : State) (n r : FixedWord) (is : List IndexWord) (h : Bool) : (s.setContext n r is h).cfg = s.cfg := rfl
@[simp] theorem State.setContext_phase (s : State) (n r : FixedWord) (is : List IndexWord) (h : Bool) : (s.setContext n r is h).phase = s.phase := rfl
@[simp] theorem State.setContext_commit (s : State) (n r : FixedWord) (is : List IndexWord) (h : Bool) : (s.setContext n r is h).commit = s.commit := rfl
@[simp] theorem State.setContext_cValid (s : State) (n r : FixedWord) (is : List IndexWord) (h : Bool) : (s.setContext n r is h).cValid = s.cValid := rfl
@[simp] theorem State.setContext_target (s : State) (n r : FixedWord) (is : List IndexWord) (h : Bool) : (s.setContext n r is h).target = s.target := rfl
@[simp] theorem State.setContext_tValid (s : State) (n r : FixedWord) (is : List IndexWord) (h : Bool) : (s.setContext n r is h).tValid = s.tValid := rfl
@[simp] theorem State.setContext_table (s : State) (n r : FixedWord) (is : List IndexWord) (h : Bool) : (s.setContext n r is h).table = s.table := rfl
@[simp] theorem State.setContext_loadPtr (s : State) (n r : FixedWord) (is : List IndexWord) (h : Bool) : (s.setContext n r is h).loadPtr = s.loadPtr := rfl
@[simp] theorem State.setContext_nonce (s : State) (n r : FixedWord) (is : List IndexWord) (h : Bool) : (s.setContext n r is h).nonce = some n := rfl
@[simp] theorem State.setContext_result (s : State) (n r : FixedWord) (is : List IndexWord) (h : Bool) : (s.setContext n r is h).result = some r := rfl
@[simp] theorem State.setContext_idx (s : State) (n r : FixedWord) (is : List IndexWord) (h : Bool) : (s.setContext n r is h).idx = is.map some := rfl
@[simp] theorem State.setContext_done (s : State) (n r : FixedWord) (is : List IndexWord) (h : Bool) : (s.setContext n r is h).done = true := rfl
@[simp] theorem State.setContext_hit (s : State) (n r : FixedWord) (is : List IndexWord) (h : Bool) : (s.setContext n r is h).hit = h := rfl
@[simp] theorem State.setContext_cursor (s : State) (n r : FixedWord) (is : List IndexWord) (h : Bool) : (s.setContext n r is h).cursor = s.cursor := rfl
@[simp] theorem State.setContext_stop (s : State) (n r : FixedWord) (is : List IndexWord) (h : Bool) : (s.setContext n r is h).stop = s.stop := rfl
@[simp] theorem State.setContext_bestValid (s : State) (n r : FixedWord) (is : List IndexWord) (h : Bool) : (s.setContext n r is h).bestValid = s.bestValid := rfl
@[simp] theorem State.setContext_bestNonce (s : State) (n r : FixedWord) (is : List IndexWord) (h : Bool) : (s.setContext n r is h).bestNonce = s.bestNonce := rfl
@[simp] theorem State.setContext_bestResult (s : State) (n r : FixedWord) (is : List IndexWord) (h : Bool) : (s.setContext n r is h).bestResult = s.bestResult := rfl
@[simp] theorem State.setContext_lanes (s : State) (n r : FixedWord) (is : List IndexWord) (h : Bool) : (s.setContext n r is h).lanes = s.lanes := rfl
@[simp] theorem State.setContext_err (s : State) (n r : FixedWord) (is : List IndexWord) (h : Bool) : (s.setContext n r is h).err = s.err := rfl
@[simp] theorem State.setContext_agenda (s : State) (n r : FixedWord) (is : List IndexWord) (h : Bool) : (s.setContext n r is h).agenda = s.agenda := rfl
@[simp] theorem State.setContext_responses (s : State) (n r : FixedWord) (is : List IndexWord) (h : Bool) : (s.setContext n r is h).responses = s.responses := rfl

@[simp] theorem State.setCursor_cfg (s : State) (v : FixedWord) : (s.setCursor v).cfg = s.cfg := rfl
@[simp] theorem State.setCursor_phase (s : State) (v : FixedWord) : (s.setCursor v).phase = s.phase := rfl
@[simp] theorem State.setCursor_commit (s : State) (v : FixedWord) : (s.setCursor v).commit = s.commit := rfl
@[simp] theorem State.setCursor_cValid (s : State) (v : FixedWord) : (s.setCursor v).cValid = s.cValid := rfl
@[simp] theorem State.setCursor_target (s : State) (v : FixedWord) : (s.setCursor v).target = s.target := rfl
@[simp] theorem State.setCursor_tValid (s : State) (v : FixedWord) : (s.setCursor v).tValid = s.tValid := rfl
@[simp] theorem State.setCursor_table (s : State) (v : FixedWord) : (s.setCursor v).table = s.table := rfl
@[simp] theorem State.setCursor_loadPtr (s : State) (v : FixedWord) : (s.setCursor v).loadPtr = s.loadPtr := rfl
@[simp] theorem State.setCursor_nonce (s : State) (v : FixedWord) : (s.setCursor v).nonce = s.nonce := rfl
@[simp] theorem State.setCursor_result (s : State) (v : FixedWord) : (s.setCursor v).result = s.result := rfl
@[simp] theorem State.setCursor_idx (s : State) (v : FixedWord) : (s.setCursor v).idx = s.idx := rfl
@[simp] theorem State.setCursor_done (s : State) (v : FixedWord) : (s.setCursor v).done = s.done := rfl
@[simp] theorem State.setCursor_hit (s : State) (v : FixedWord) : (s.setCursor v).hit = s.hit := rfl
@[simp] theorem State.setCursor_cursor (s : State) (v : FixedWord) : (s.setCursor v).cursor = v := rfl
@[simp] theorem State.setCursor_stop (s : State) (v : FixedWord) : (s.setCursor v).stop = s.stop := rfl
@[simp] theorem State.setCursor_bestValid (s : State) (v : FixedWord) : (s.setCursor v).bestValid = s.bestValid := rfl
@[simp] theorem State.setCursor_bestNonce (s : State) (v : FixedWord) : (s.setCursor v).bestNonce = s.bestNonce := rfl
@[simp] theorem State.setCursor_bestResult (s : State) (v : FixedWord) : (s.setCursor v).bestResult = s.bestResult := rfl
@[simp] theorem State.setCursor_lanes (s : State) (v : FixedWord) : (s.setCursor v).lanes = s.lanes := rfl
@[simp] theorem State.setCursor_err (s : State) (v : FixedWord) : (s.setCursor v).err = s.err := rfl
@[simp] theorem State.setCursor_agenda (s : State) (v : FixedWord) : (s.setCursor v).agenda = s.agenda := rfl
@[simp] theorem State.setCursor_responses (s : State) (v : FixedWord) : (s.setCursor v).responses = s.responses := rfl

@[simp] theorem State.setStop_cfg (s : State) (b : Bool) : (s.setStop b).cfg = s.cfg := rfl
@[simp] theorem State.setStop_phase (s : State) (b : Bool) : (s.setStop b).phase = s.phase := rfl
@[simp] theorem State.setStop_commit (s : State) (b : Bool) : (s.setStop b).commit = s.commit := rfl
@[simp] theorem State.setStop_cValid (s : State) (b : Bool) : (s.setStop b).cValid = s.cValid := rfl
@[simp] theorem State.setStop_target (s : State) (b : Bool) : (s.setStop b).target = s.target := rfl
@[simp] theorem State.setStop_tValid (s : State) (b : Bool) : (s.setStop b).tValid = s.tValid := rfl
@[simp] theorem State.setStop_table (s : State) (b : Bool) : (s.setStop b).table = s.table := rfl
@[simp] theorem State.setStop_loadPtr (s : State) (b : Bool) : (s.setStop b).loadPtr = s.loadPtr := rfl
@[simp] theorem State.setStop_nonce (s : State) (b : Bool) : (s.setStop b).nonce = s.nonce := rfl
@[simp] theorem State.setStop_result (s : State) (b : Bool) : (s.setStop b).result = s.result := rfl
@[simp] theorem State.setStop_idx (s : State) (b : Bool) : (s.setStop b).idx = s.idx := rfl
@[simp] theorem State.setStop_done (s : State) (b : Bool) : (s.setStop b).done = s.done := rfl
@[simp] theorem State.setStop_hit (s : State) (b : Bool) : (s.setStop b).hit = s.hit := rfl
@[simp] theorem State.setStop_cursor (s : State) (b : Bool) : (s.setStop b).cursor = s.cursor := rfl
@[simp] theorem State.setStop_stop (s : State) (b : Bool) : (s.setStop b).stop = b := rfl
@[simp] theorem State.setStop_bestValid (s : State) (b : Bool) : (s.setStop b).bestValid = s.bestValid := rfl
@[simp] theorem State.setStop_bestNonce (s : State) (b : Bool) : (s.setStop b).bestNonce = s.bestNonce := rfl
@[simp] theorem State.setStop_bestResult (s : State) (b : Bool) : (s.setStop b).bestResult = s.bestResult := rfl
@[simp] theorem State.setStop_lanes (s : State) (b : Bool) : (s.setStop b).lanes = s.lanes := rfl
@[simp] theorem State.setStop_err (s : State) (b : Bool) : (s.setStop b).err = s.err := rfl
@[simp] theorem State.setStop_agenda (s : State) (b : Bool) : (s.setStop b).agenda = s.agenda := rfl
@[simp] theorem State.setStop_responses (s : State) (b : Bool) : (s.setStop b).responses = s.responses := rfl

@[simp] theorem State.clearBest_cfg (s : State) : s.clearBest.cfg = s.cfg := rfl
@[simp] theorem State.clearBest_phase (s : State) : s.clearBest.phase = s.phase := rfl
@[simp] theorem State.clearBest_commit (s : State) : s.clearBest.commit = s.commit := rfl
@[simp] theorem State.clearBest_cValid (s : State) : s.clearBest.cValid = s.cValid := rfl
@[simp] theorem State.clearBest_target (s : State) : s.clearBest.target = s.target := rfl
@[simp] theorem State.clearBest_tValid (s : State) : s.clearBest.tValid = s.tValid := rfl
@[simp] theorem State.clearBest_table (s : State) : s.clearBest.table = s.table := rfl
@[simp] theorem State.clearBest_loadPtr (s : State) : s.clearBest.loadPtr = s.loadPtr := rfl
@[simp] theorem State.clearBest_nonce (s : State) : s.clearBest.nonce = s.nonce := rfl
@[simp] theorem State.clearBest_result (s : State) : s.clearBest.result = s.result := rfl
@[simp] theorem State.clearBest_idx (s : State) : s.clearBest.idx = s.idx := rfl
@[simp] theorem State.clearBest_done (s : State) : s.clearBest.done = s.done := rfl
@[simp] theorem State.clearBest_hit (s : State) : s.clearBest.hit = s.hit := rfl
@[simp] theorem State.clearBest_cursor (s : State) : s.clearBest.cursor = s.cursor := rfl
@[simp] theorem State.clearBest_stop (s : State) : s.clearBest.stop = s.stop := rfl
@[simp] theorem State.clearBest_bestValid (s : State) : s.clearBest.bestValid = false := rfl
@[simp] theorem State.clearBest_bestNonce (s : State) : s.clearBest.bestNonce = none := rfl
@[simp] theorem State.clearBest_bestResult (s : State) : s.clearBest.bestResult = none := rfl
@[simp] theorem State.clearBest_lanes (s : State) : s.clearBest.lanes = s.lanes := rfl
@[simp] theorem State.clearBest_err (s : State) : s.clearBest.err = s.err := rfl
@[simp] theorem State.clearBest_agenda (s : State) : s.clearBest.agenda = s.agenda := rfl
@[simp] theorem State.clearBest_responses (s : State) : s.clearBest.responses = s.responses := rfl

@[simp] theorem State.setBest_cfg (s : State) (n r : FixedWord) : (s.setBest n r).cfg = s.cfg := rfl
@[simp] theorem State.setBest_phase (s : State) (n r : FixedWord) : (s.setBest n r).phase = s.phase := rfl
@[simp] theorem State.setBest_commit (s : State) (n r : FixedWord) : (s.setBest n r).commit = s.commit := rfl
@[simp] theorem State.setBest_cValid (s : State) (n r : FixedWord) : (s.setBest n r).cValid = s.cValid := rfl
@[simp] theorem State.setBest_target (s : State) (n r : FixedWord) : (s.setBest n r).target = s.target := rfl
@[simp] theorem State.setBest_tValid (s : State) (n r : FixedWord) : (s.setBest n r).tValid = s.tValid := rfl
@[simp] theorem State.setBest_table (s : State) (n r : FixedWord) : (s.setBest n r).table = s.table := rfl
@[simp] theorem State.setBest_loadPtr (s : State) (n r : FixedWord) : (s.setBest n r).loadPtr = s.loadPtr := rfl
@[simp] theorem State.setBest_nonce (s : State) (n r : FixedWord) : (s.setBest n r).nonce = s.nonce := rfl
@[simp] theorem State.setBest_result (s : State) (n r : FixedWord) : (s.setBest n r).result = s.result := rfl
@[simp] theorem State.setBest_idx (s : State) (n r : FixedWord) : (s.setBest n r).idx = s.idx := rfl
@[simp] theorem State.setBest_done (s : State) (n r : FixedWord) : (s.setBest n r).done = s.done := rfl
@[simp] theorem State.setBest_hit (s : State) (n r : FixedWord) : (s.setBest n r).hit = s.hit := rfl
@[simp] theorem State.setBest_cursor (s : State) (n r : FixedWord) : (s.setBest n r).cursor = s.cursor := rfl
@[simp] theorem State.setBest_stop (s : State) (n r : FixedWord) : (s.setBest n r).stop = s.stop := rfl
@[simp] theorem State.setBest_bestValid (s : State) (n r : FixedWord) : (s.setBest n r).bestValid = true := rfl
@[simp] theorem State.setBest_bestNonce (s : State) (n r : FixedWord) : (s.setBest n r).bestNonce = some n := rfl
@[simp] theorem State.setBest_bestResult (s : State) (n r : FixedWord) : (s.setBest n r).bestResult = some r := rfl
@[simp] theorem State.setBest_lanes (s : State) (n r : FixedWord) : (s.setBest n r).lanes = s.lanes := rfl
@[simp] theorem State.setBest_err (s : State) (n r : FixedWord) : (s.setBest n r).err = s.err := rfl
@[simp] theorem State.setBest_agenda (s : State) (n r : FixedWord) : (s.setBest n r).agenda = s.agenda := rfl
@[simp] theorem State.setBest_responses (s : State) (n r : FixedWord) : (s.setBest n r).responses = s.responses := rfl

@[simp] theorem State.setLanes_cfg (s : State) (ls : List Lane) : (s.setLanes ls).cfg = s.cfg := rfl
@[simp] theorem State.setLanes_phase (s : State) (ls : List Lane) : (s.setLanes ls).phase = s.phase := rfl
@[simp] theorem State.setLanes_commit (s : State) (ls : List Lane) : (s.setLanes ls).commit = s.commit := rfl
@[simp] theorem State.setLanes_cValid (s : State) (ls : List Lane) : (s.setLanes ls).cValid = s.cValid := rfl
@[simp] theorem State.setLanes_target (s : State) (ls : List Lane) : (s.setLanes ls).target = s.target := rfl
@[simp] theorem State.setLanes_tValid (s : State) (ls : List Lane) : (s.setLanes ls).tValid = s.tValid := rfl
@[simp] theorem State.setLanes_table (s : State) (ls : List Lane) : (s.setLanes ls).table = s.table := rfl
@[simp] theorem State.setLanes_loadPtr (s : State) (ls : List Lane) : (s.setLanes ls).loadPtr = s.loadPtr := rfl
@[simp] theorem State.setLanes_nonce (s : State) (ls : List Lane) : (s.setLanes ls).nonce = s.nonce := rfl
@[simp] theorem State.setLanes_result (s : State) (ls : List Lane) : (s.setLanes ls).result = s.result := rfl
@[simp] theorem State.setLanes_idx (s : State) (ls : List Lane) : (s.setLanes ls).idx = s.idx := rfl
@[simp] theorem State.setLanes_done (s : State) (ls : List Lane) : (s.setLanes ls).done = s.done := rfl
@[simp] theorem State.setLanes_hit (s : State) (ls : List Lane) : (s.setLanes ls).hit = s.hit := rfl
@[simp] theorem State.setLanes_cursor (s : State) (ls : List Lane) : (s.setLanes ls).cursor = s.cursor := rfl
@[simp] theorem State.setLanes_stop (s : State) (ls : List Lane) : (s.setLanes ls).stop = s.stop := rfl
@[simp] theorem State.setLanes_bestValid (s : State) (ls : List Lane) : (s.setLanes ls).bestValid = s.bestValid := rfl
@[simp] theorem State.setLanes_bestNonce (s : State) (ls : List Lane) : (s.setLanes ls).bestNonce = s.bestNonce := rfl
@[simp] theorem State.setLanes_bestResult (s : State) (ls : List Lane) : (s.setLanes ls).bestResult = s.bestResult := rfl
@[simp] theorem State.setLanes_lanes (s : State) (ls : List Lane) : (s.setLanes ls).lanes = ls := rfl
@[simp] theorem State.setLanes_err (s : State) (ls : List Lane) : (s.setLanes ls).err = s.err := rfl
@[simp] theorem State.setLanes_agenda (s : State) (ls : List Lane) : (s.setLanes ls).agenda = s.agenda := rfl
@[simp] theorem State.setLanes_responses (s : State) (ls : List Lane) : (s.setLanes ls).responses = s.responses := rfl

@[simp] theorem State.setLane_cfg (s : State) (l : Nat) (x : Lane) : (s.setLane l x).cfg = s.cfg := rfl
@[simp] theorem State.setLane_phase (s : State) (l : Nat) (x : Lane) : (s.setLane l x).phase = s.phase := rfl
@[simp] theorem State.setLane_commit (s : State) (l : Nat) (x : Lane) : (s.setLane l x).commit = s.commit := rfl
@[simp] theorem State.setLane_cValid (s : State) (l : Nat) (x : Lane) : (s.setLane l x).cValid = s.cValid := rfl
@[simp] theorem State.setLane_target (s : State) (l : Nat) (x : Lane) : (s.setLane l x).target = s.target := rfl
@[simp] theorem State.setLane_tValid (s : State) (l : Nat) (x : Lane) : (s.setLane l x).tValid = s.tValid := rfl
@[simp] theorem State.setLane_table (s : State) (l : Nat) (x : Lane) : (s.setLane l x).table = s.table := rfl
@[simp] theorem State.setLane_loadPtr (s : State) (l : Nat) (x : Lane) : (s.setLane l x).loadPtr = s.loadPtr := rfl
@[simp] theorem State.setLane_nonce (s : State) (l : Nat) (x : Lane) : (s.setLane l x).nonce = s.nonce := rfl
@[simp] theorem State.setLane_result (s : State) (l : Nat) (x : Lane) : (s.setLane l x).result = s.result := rfl
@[simp] theorem State.setLane_idx (s : State) (l : Nat) (x : Lane) : (s.setLane l x).idx = s.idx := rfl
@[simp] theorem State.setLane_done (s : State) (l : Nat) (x : Lane) : (s.setLane l x).done = s.done := rfl
@[simp] theorem State.setLane_hit (s : State) (l : Nat) (x : Lane) : (s.setLane l x).hit = s.hit := rfl
@[simp] theorem State.setLane_cursor (s : State) (l : Nat) (x : Lane) : (s.setLane l x).cursor = s.cursor := rfl
@[simp] theorem State.setLane_stop (s : State) (l : Nat) (x : Lane) : (s.setLane l x).stop = s.stop := rfl
@[simp] theorem State.setLane_bestValid (s : State) (l : Nat) (x : Lane) : (s.setLane l x).bestValid = s.bestValid := rfl
@[simp] theorem State.setLane_bestNonce (s : State) (l : Nat) (x : Lane) : (s.setLane l x).bestNonce = s.bestNonce := rfl
@[simp] theorem State.setLane_bestResult (s : State) (l : Nat) (x : Lane) : (s.setLane l x).bestResult = s.bestResult := rfl
@[simp] theorem State.setLane_lanes (s : State) (l : Nat) (x : Lane) : (s.setLane l x).lanes = s.lanes.set l x := rfl
@[simp] theorem State.setLane_err (s : State) (l : Nat) (x : Lane) : (s.setLane l x).err = s.err := rfl
@[simp] theorem State.setLane_agenda (s : State) (l : Nat) (x : Lane) : (s.setLane l x).agenda = s.agenda := rfl
@[simp] theorem State.setLane_responses (s : State) (l : Nat) (x : Lane) : (s.setLane l x).responses = s.responses := rfl

@[simp] theorem State.startRun_cfg (s : State) : s.startRun.cfg = s.cfg := rfl
@[simp] theorem State.startRun_phase (s : State) : s.startRun.phase = .searching := rfl
@[simp] theorem State.startRun_commit (s : State) : s.startRun.commit = s.commit := rfl
@[simp] theorem State.startRun_cValid (s : State) : s.startRun.cValid = s.cValid := rfl
@[simp] theorem State.startRun_target (s : State) : s.startRun.target = s.target := rfl
@[simp] theorem State.startRun_tValid (s : State) : s.startRun.tValid = s.tValid := rfl
@[simp] theorem State.startRun_table (s : State) : s.startRun.table = s.table := rfl
@[simp] theorem State.startRun_loadPtr (s : State) : s.startRun.loadPtr = s.loadPtr := rfl
@[simp] theorem State.startRun_nonce (s : State) : s.startRun.nonce = s.nonce := rfl
@[simp] theorem State.startRun_result (s : State) : s.startRun.result = s.result := rfl
@[simp] theorem State.startRun_idx (s : State) : s.startRun.idx = s.idx := rfl
@[simp] theorem State.startRun_done (s : State) : s.startRun.done = s.done := rfl
@[simp] theorem State.startRun_hit (s : State) : s.startRun.hit = s.hit := rfl
@[simp] theorem State.startRun_cursor (s : State) : s.startRun.cursor = s.cfg.cursorInit := rfl
@[simp] theorem State.startRun_stop (s : State) : s.startRun.stop = false := rfl
@[simp] theorem State.startRun_bestValid (s : State) : s.startRun.bestValid = false := rfl
@[simp] theorem State.startRun_bestNonce (s : State) : s.startRun.bestNonce = none := rfl
@[simp] theorem State.startRun_bestResult (s : State) : s.startRun.bestResult = none := rfl
@[simp] theorem State.startRun_lanes (s : State) : s.startRun.lanes = s.lanes.map (fun l => { l with state := .check }) := rfl
@[simp] theorem State.startRun_err (s : State) : s.startRun.err = s.err := rfl
@[simp] theorem State.startRun_agenda (s : State) : s.startRun.agenda = s.agenda := rfl
@[simp] theorem State.startRun_responses (s : State) : s.startRun.responses = s.responses := rfl

@[simp] theorem State.resetBlock_cfg (s : State) : s.resetBlock.cfg = s.cfg := rfl
@[simp] theorem State.resetBlock_phase (s : State) : s.resetBlock.phase = .loading := rfl
@[simp] theorem State.resetBlock_commit (s : State) : s.resetBlock.commit = none := rfl
@[simp] theorem State.resetBlock_cValid (s : State) : s.resetBlock.cValid = false := rfl
@[simp] theorem State.resetBlock_target (s : State) : s.resetBlock.target = none := rfl
@[simp] theorem State.resetBlock_tValid (s : State) : s.resetBlock.tValid = false := rfl
@[simp] theorem State.resetBlock_table (s : State) : s.resetBlock.table = [] := rfl
@[simp] theorem State.resetBlock_loadPtr (s : State) : s.resetBlock.loadPtr = 0 := rfl
@[simp] theorem State.resetBlock_nonce (s : State) : s.resetBlock.nonce = none := rfl
@[simp] theorem State.resetBlock_result (s : State) : s.resetBlock.result = none := rfl
@[simp] theorem State.resetBlock_idx (s : State) : s.resetBlock.idx = List.replicate 10 none := rfl
@[simp] theorem State.resetBlock_done (s : State) : s.resetBlock.done = false := rfl
@[simp] theorem State.resetBlock_hit (s : State) : s.resetBlock.hit = false := rfl
@[simp] theorem State.resetBlock_cursor (s : State) : s.resetBlock.cursor = s.cfg.cursorInit := rfl
@[simp] theorem State.resetBlock_stop (s : State) : s.resetBlock.stop = false := rfl
@[simp] theorem State.resetBlock_bestValid (s : State) : s.resetBlock.bestValid = false := rfl
@[simp] theorem State.resetBlock_bestNonce (s : State) : s.resetBlock.bestNonce = none := rfl
@[simp] theorem State.resetBlock_bestResult (s : State) : s.resetBlock.bestResult = none := rfl
@[simp] theorem State.resetBlock_lanes (s : State) : s.resetBlock.lanes = List.replicate s.cfg.W Lane.reset := rfl
@[simp] theorem State.resetBlock_err (s : State) : s.resetBlock.err = 0 := rfl
@[simp] theorem State.resetBlock_agenda (s : State) : s.resetBlock.agenda = s.agenda := rfl
@[simp] theorem State.resetBlock_responses (s : State) : s.resetBlock.responses = s.responses := rfl

@[simp] theorem State.respondOk_cfg (s : State) (d : FixedWord) : (s.respondOk d).cfg = s.cfg := rfl
@[simp] theorem State.respondOk_phase (s : State) (d : FixedWord) : (s.respondOk d).phase = s.phase := rfl
@[simp] theorem State.respondOk_commit (s : State) (d : FixedWord) : (s.respondOk d).commit = s.commit := rfl
@[simp] theorem State.respondOk_cValid (s : State) (d : FixedWord) : (s.respondOk d).cValid = s.cValid := rfl
@[simp] theorem State.respondOk_target (s : State) (d : FixedWord) : (s.respondOk d).target = s.target := rfl
@[simp] theorem State.respondOk_tValid (s : State) (d : FixedWord) : (s.respondOk d).tValid = s.tValid := rfl
@[simp] theorem State.respondOk_table (s : State) (d : FixedWord) : (s.respondOk d).table = s.table := rfl
@[simp] theorem State.respondOk_loadPtr (s : State) (d : FixedWord) : (s.respondOk d).loadPtr = s.loadPtr := rfl
@[simp] theorem State.respondOk_nonce (s : State) (d : FixedWord) : (s.respondOk d).nonce = s.nonce := rfl
@[simp] theorem State.respondOk_result (s : State) (d : FixedWord) : (s.respondOk d).result = s.result := rfl
@[simp] theorem State.respondOk_idx (s : State) (d : FixedWord) : (s.respondOk d).idx = s.idx := rfl
@[simp] theorem State.respondOk_done (s : State) (d : FixedWord) : (s.respondOk d).done = s.done := rfl
@[simp] theorem State.respondOk_hit (s : State) (d : FixedWord) : (s.respondOk d).hit = s.hit := rfl
@[simp] theorem State.respondOk_cursor (s : State) (d : FixedWord) : (s.respondOk d).cursor = s.cursor := rfl
@[simp] theorem State.respondOk_stop (s : State) (d : FixedWord) : (s.respondOk d).stop = s.stop := rfl
@[simp] theorem State.respondOk_bestValid (s : State) (d : FixedWord) : (s.respondOk d).bestValid = s.bestValid := rfl
@[simp] theorem State.respondOk_bestNonce (s : State) (d : FixedWord) : (s.respondOk d).bestNonce = s.bestNonce := rfl
@[simp] theorem State.respondOk_bestResult (s : State) (d : FixedWord) : (s.respondOk d).bestResult = s.bestResult := rfl
@[simp] theorem State.respondOk_lanes (s : State) (d : FixedWord) : (s.respondOk d).lanes = s.lanes := rfl
@[simp] theorem State.respondOk_err (s : State) (d : FixedWord) : (s.respondOk d).err = s.err := rfl
@[simp] theorem State.respondOk_agenda (s : State) (d : FixedWord) : (s.respondOk d).agenda = s.agenda := rfl
@[simp] theorem State.respondOk_responses (s : State) (d : FixedWord) : (s.respondOk d).responses = s.responses ++ [responseWord okCode s.flagsByte d] := rfl

@[simp] theorem State.fail_cfg (s : State) (e : ErrorCode) : (s.fail e).cfg = s.cfg := rfl
@[simp] theorem State.fail_phase (s : State) (e : ErrorCode) : (s.fail e).phase = s.phase := rfl
@[simp] theorem State.fail_commit (s : State) (e : ErrorCode) : (s.fail e).commit = s.commit := rfl
@[simp] theorem State.fail_cValid (s : State) (e : ErrorCode) : (s.fail e).cValid = s.cValid := rfl
@[simp] theorem State.fail_target (s : State) (e : ErrorCode) : (s.fail e).target = s.target := rfl
@[simp] theorem State.fail_tValid (s : State) (e : ErrorCode) : (s.fail e).tValid = s.tValid := rfl
@[simp] theorem State.fail_table (s : State) (e : ErrorCode) : (s.fail e).table = s.table := rfl
@[simp] theorem State.fail_loadPtr (s : State) (e : ErrorCode) : (s.fail e).loadPtr = s.loadPtr := rfl
@[simp] theorem State.fail_nonce (s : State) (e : ErrorCode) : (s.fail e).nonce = s.nonce := rfl
@[simp] theorem State.fail_result (s : State) (e : ErrorCode) : (s.fail e).result = s.result := rfl
@[simp] theorem State.fail_idx (s : State) (e : ErrorCode) : (s.fail e).idx = s.idx := rfl
@[simp] theorem State.fail_done (s : State) (e : ErrorCode) : (s.fail e).done = s.done := rfl
@[simp] theorem State.fail_hit (s : State) (e : ErrorCode) : (s.fail e).hit = s.hit := rfl
@[simp] theorem State.fail_cursor (s : State) (e : ErrorCode) : (s.fail e).cursor = s.cursor := rfl
@[simp] theorem State.fail_stop (s : State) (e : ErrorCode) : (s.fail e).stop = s.stop := rfl
@[simp] theorem State.fail_bestValid (s : State) (e : ErrorCode) : (s.fail e).bestValid = s.bestValid := rfl
@[simp] theorem State.fail_bestNonce (s : State) (e : ErrorCode) : (s.fail e).bestNonce = s.bestNonce := rfl
@[simp] theorem State.fail_bestResult (s : State) (e : ErrorCode) : (s.fail e).bestResult = s.bestResult := rfl
@[simp] theorem State.fail_lanes (s : State) (e : ErrorCode) : (s.fail e).lanes = s.lanes := rfl
@[simp] theorem State.fail_err (s : State) (e : ErrorCode) : (s.fail e).err = s.err ||| e.bit := rfl
@[simp] theorem State.fail_agenda (s : State) (e : ErrorCode) : (s.fail e).agenda = s.agenda := rfl
@[simp] theorem State.fail_responses (s : State) (e : ErrorCode) : (s.fail e).responses = s.responses ++ [responseWord e.code s.flagsByte 0] := rfl

@[simp] theorem State.resetOf_cfg (c : Config) : (State.resetOf c).cfg = c := rfl
@[simp] theorem State.resetOf_phase (c : Config) : (State.resetOf c).phase = .loading := rfl
@[simp] theorem State.resetOf_commit (c : Config) : (State.resetOf c).commit = none := rfl
@[simp] theorem State.resetOf_cValid (c : Config) : (State.resetOf c).cValid = false := rfl
@[simp] theorem State.resetOf_target (c : Config) : (State.resetOf c).target = none := rfl
@[simp] theorem State.resetOf_tValid (c : Config) : (State.resetOf c).tValid = false := rfl
@[simp] theorem State.resetOf_table (c : Config) : (State.resetOf c).table = [] := rfl
@[simp] theorem State.resetOf_loadPtr (c : Config) : (State.resetOf c).loadPtr = 0 := rfl
@[simp] theorem State.resetOf_nonce (c : Config) : (State.resetOf c).nonce = none := rfl
@[simp] theorem State.resetOf_result (c : Config) : (State.resetOf c).result = none := rfl
@[simp] theorem State.resetOf_idx (c : Config) : (State.resetOf c).idx = List.replicate 10 none := rfl
@[simp] theorem State.resetOf_done (c : Config) : (State.resetOf c).done = false := rfl
@[simp] theorem State.resetOf_hit (c : Config) : (State.resetOf c).hit = false := rfl
@[simp] theorem State.resetOf_cursor (c : Config) : (State.resetOf c).cursor = c.cursorInit := rfl
@[simp] theorem State.resetOf_stop (c : Config) : (State.resetOf c).stop = false := rfl
@[simp] theorem State.resetOf_bestValid (c : Config) : (State.resetOf c).bestValid = false := rfl
@[simp] theorem State.resetOf_bestNonce (c : Config) : (State.resetOf c).bestNonce = none := rfl
@[simp] theorem State.resetOf_bestResult (c : Config) : (State.resetOf c).bestResult = none := rfl
@[simp] theorem State.resetOf_lanes (c : Config) : (State.resetOf c).lanes = List.replicate c.W Lane.reset := rfl
@[simp] theorem State.resetOf_err (c : Config) : (State.resetOf c).err = 0 := rfl
@[simp] theorem State.resetOf_agenda (c : Config) : (State.resetOf c).agenda = [] := rfl
@[simp] theorem State.resetOf_responses (c : Config) : (State.resetOf c).responses = [] := rfl

end Sys2Proof.Machine
end

