-- ==== Sys2Proof/Laws/Ops.lean ====
section
/-!
SUPPORT. Once for each shared operation, everything it can do: the common checks, the answers, the evaluation, the critical
section of `L_PUBLISH`, the lane steps, and the step itself.
-/

namespace Sys2Proof.Machine

/-- The checks passed: the command has its own effect. -/
theorem checked_pass {use : FieldUse} {permitted : Phase → Bool} {f : Fields} {s : State}
    (hf : use.ok f = true) (hp : permitted s.phase = true) (o : Host.Outcome State Fault Refusal) :
    checked use permitted f s o = o := by
  simp [checked, hf, hp]

/-- A field that must be zero is not: `E_FIELD`, whatever the phase (rule R173). -/
theorem checked_field {use : FieldUse} {f : Fields} (hf : use.ok f = false) (permitted : Phase → Bool) (s : State)
    (o : Host.Outcome State Fault Refusal) : checked use permitted f s o = raise s .field := by
  simp [checked, hf]

/-- The phase does not permit the command: `E_PHASE` (rule R64). -/
theorem checked_phase {use : FieldUse} {permitted : Phase → Bool} {f : Fields} {s : State}
    (hf : use.ok f = true) (hp : permitted s.phase = false) (o : Host.Outcome State Fault Refusal) :
    checked use permitted f s o = raise s .phase := by
  simp [checked, hf, hp]

/-- Everything the common checks can do (rule R173). -/
theorem checked_cases (use : FieldUse) (permitted : Phase → Bool) (f : Fields) (s : State)
    (o : Host.Outcome State Fault Refusal) :
    (use.ok f = false ∧ checked use permitted f s o = raise s .field) ∨
      (use.ok f = true ∧ permitted s.phase = false ∧ checked use permitted f s o = raise s .phase) ∨
      (use.ok f = true ∧ permitted s.phase = true ∧ checked use permitted f s o = o) := by
  cases hf : use.ok f
  · exact .inl ⟨rfl, checked_field hf permitted s o⟩
  · cases hp : permitted s.phase
    · exact .inr (.inl ⟨rfl, rfl, checked_phase hf hp o⟩)
    · exact .inr (.inr ⟨rfl, rfl, checked_pass hf hp o⟩)

/-- Everything the answer with a register's value can do. -/
theorem finishWith_cases (s : State) (cell : ValueCell) (v : Option FixedWord) :
    (∃ d, v = some d ∧ finishWith s cell v = .next (s.respondOk d)) ∨
      (v = none ∧ finishWith s cell v = .fault (.noValue cell)) := by
  cases v with
  | some d => exact .inl ⟨d, rfl, rfl⟩
  | none => exact .inr ⟨rfl, rfl⟩

/-- The field check of a command with no operand is well-formedness (rule R66). -/
theorem FieldUse.ok_none (f : Fields) : FieldUse.ok .none f = (f.rsv == 0 && f.addr == 0 && f.data == 0) := rfl

/-- The field check of a command with an address operand. -/
theorem FieldUse.ok_addr (f : Fields) : FieldUse.ok .addr f = (f.rsv == 0 && f.data == 0) := rfl

/-- The field check of a command with a data operand. -/
theorem FieldUse.ok_data (f : Fields) : FieldUse.ok .data f = (f.rsv == 0 && f.addr == 0) := rfl

/-- There are ten rounds (rule R105). -/
theorem roundIndices_length (c : Config) (commitment n : FixedWord) : (roundIndices c commitment n).length = 10 := by
  simp [roundIndices, c.legal.1]

/-- Every computed index is a legal table address (rule R104). -/
theorem roundIndices_lt {c : Config} {commitment n : FixedWord} {i : Nat} (h : i ∈ roundIndices c commitment n) :
    i < c.N := by
  simp only [roundIndices, List.mem_map] at h
  obtain ⟨p, -, rfl⟩ := h
  exact Nat.mod_lt _ c.legal.2.2.2.2.1.1

/-- The fold finds a value when every word it reads holds one. -/
theorem foldTable_isSome (T : Memory) (is : List Nat) (h : ∀ i ∈ is, (Memory.read T i).isSome = true)
    (acc : FixedWord) : (foldTable T acc is).isSome = true := by
  induction is generalizing acc with
  | nil => rfl
  | cons i is ih =>
    obtain ⟨w, hw⟩ := Option.isSome_iff_exists.1 (h i List.mem_cons_self)
    simpa [foldTable, hw] using ih (fun j hj => h j (List.mem_cons_of_mem _ hj)) _

/-- Everything an evaluation can yield (rule R106). -/
theorem evaluate_eq_some {c : Config} {T : Memory} {commitment n : FixedWord} {e : Evaluation} :
    evaluate c T commitment n = some e ↔
      foldTable T commitment (roundIndices c commitment n) = some e.result ∧
        e.idx = (roundIndices c commitment n).map (BitVec.ofNat 32) := by
  unfold evaluate
  cases foldTable T commitment (roundIndices c commitment n) with
  | none => simp
  | some r => obtain ⟨r', is⟩ := e; simp [eq_comm]

/-- An evaluation over a full table yields a result (rules R106, R179). -/
theorem evaluate_isSome {c : Config} {T : Memory} (h : ∀ i < c.N, (Memory.read T i).isSome = true)
    (commitment n : FixedWord) : ∃ e, evaluate c T commitment n = some e := by
  have := foldTable_isSome T (roundIndices c commitment n) (fun i hi => h i (roundIndices_lt hi)) commitment
  obtain ⟨r, hr⟩ := Option.isSome_iff_exists.1 this
  exact ⟨⟨r, _⟩, evaluate_eq_some.2 ⟨hr, rfl⟩⟩

/-- Everything `EVAL` can do after its checks (rule R108). -/
theorem evalContext_cases {n : FixedWord} {s : State} {o : Host.Outcome State Fault Refusal} (h : evalContext n s = o) :
    (∃ c e t, s.commit = some c ∧ evaluate s.cfg s.table c n = some e ∧ s.target = some t ∧
        o = .next ((s.setContext n e.result e.idx (isHit e.result t)).respondOk e.result)) ∨
      (∃ cell, o = .fault (.noValue cell) ∧
        (s.commit = none ∨ s.target = none ∨ ∃ c, s.commit = some c ∧ evaluate s.cfg s.table c n = none)) := by
  unfold evalContext at h
  split at h
  · exact .inr ⟨_, h.symm, .inl ‹_›⟩
  · rename_i c hc
    split at h
    · exact .inr ⟨_, h.symm, .inr (.inr ⟨c, hc, ‹_›⟩)⟩
    · rename_i e he
      split at h
      · exact .inr ⟨_, h.symm, .inr (.inl ‹_›)⟩
      · exact .inl ⟨c, e, _, hc, he, ‹_›, h.symm⟩

/-- Everything the critical section of `L_PUBLISH` can do (rule R145). -/
theorem publish_cases (n r t : FixedWord) (s : State) :
    (t.toNat < r.toNat ∧ publish n r t s = some s) ∨
      (r.toNat ≤ t.toNat ∧ s.bestValid = false ∧ publish n r t s = some ((s.setBest n r).setStop true)) ∨
      (r.toNat ≤ t.toNat ∧ s.bestValid = true ∧ s.bestResult = none ∧ publish n r t s = none) ∨
      (∃ b, r.toNat ≤ t.toNat ∧ s.bestValid = true ∧ s.bestResult = some b ∧ r.toNat < b.toNat ∧
        publish n r t s = some (s.setBest n r)) ∨
      (∃ b, r.toNat ≤ t.toNat ∧ s.bestValid = true ∧ s.bestResult = some b ∧ b.toNat ≤ r.toNat ∧
        publish n r t s = some s) := by
  by_cases hr : r.toNat ≤ t.toNat
  · cases hv : s.bestValid
    · exact .inr (.inl ⟨hr, rfl, by simp [publish, leq, hr, hv]⟩)
    · cases hb : s.bestResult with
      | none => exact .inr (.inr (.inl ⟨hr, rfl, rfl, by simp [publish, leq, hr, hv, hb]⟩))
      | some b =>
        by_cases hlt : r.toNat < b.toNat
        · exact .inr (.inr (.inr (.inl ⟨b, hr, rfl, rfl, hlt, by simp [publish, leq, hr, hv, hb, hlt]⟩)))
        · exact .inr (.inr (.inr (.inr ⟨b, hr, rfl, rfl, by omega, by simp [publish, leq, hr, hv, hb, hlt]⟩)))
  · exact .inl ⟨by omega, by simp [publish, leq, hr]⟩

/-- Lane `l` is not the agent of an enabled step (rule R146). -/
def Disabled (l : Nat) (s : State) : Prop :=
  s.phase ≠ .searching ∨ ∀ x, s.lanes[l]? = some x → x.state = .idle ∨ x.state = .exited

/-- Everything a lane step can do, when it has a next state (rules R142 to R146). -/
inductive LaneEffect (l : Nat) (s : State) : State → Prop where
  /-- No step is enabled. -/
  | none (h : Disabled l s) : LaneEffect l s s
  /-- `L_CHECK` with `STOP = 0`. -/
  | goesOn (x : Lane) (hp : s.phase = .searching) (hx : s.lanes[l]? = some x) (hs : x.state = .check)
      (h : s.stop = false) : LaneEffect l s (s.setLane l { x with state := .fetch })
  /-- `L_CHECK` with `STOP = 1` while another lane has not exited. -/
  | exits (x : Lane) (hp : s.phase = .searching) (hx : s.lanes[l]? = some x) (hs : x.state = .check) (h : s.stop = true)
      (ha : allExited (s.lanes.set l { x with state := .exited }) = false) :
      LaneEffect l s (s.setLane l { x with state := .exited })
  /-- `L_CHECK` with `STOP = 1` of the last lane. -/
  | ends (x : Lane) (hp : s.phase = .searching) (hx : s.lanes[l]? = some x) (hs : x.state = .check) (h : s.stop = true)
      (ha : allExited (s.lanes.set l { x with state := .exited }) = true) :
      LaneEffect l s ((s.setLane l { x with state := .exited }).setPhase .stopped)
  /-- `L_FETCH`. -/
  | fetches (x : Lane) (hp : s.phase = .searching) (hx : s.lanes[l]? = some x) (hs : x.state = .fetch) :
      LaneEffect l s ((s.setCursor (s.cursor + 1)).setLane l { x with state := .eval, nonce := some s.cursor })
  /-- `L_EVAL`. -/
  | evaluates (x : Lane) (c n : FixedWord) (e : Evaluation) (hp : s.phase = .searching) (hx : s.lanes[l]? = some x)
      (hs : x.state = .eval) (hc : s.commit = some c) (hn : x.nonce = some n)
      (he : evaluate s.cfg s.table c n = some e) :
      LaneEffect l s (s.setLane l { x with state := .publish, result := some e.result })
  /-- `L_PUBLISH`. -/
  | publishes (x : Lane) (n r t : FixedWord) (s' : State) (hp : s.phase = .searching) (hx : s.lanes[l]? = some x)
      (hs : x.state = .publish) (hn : x.nonce = some n) (hr : x.result = some r) (ht : s.target = some t)
      (h : publish n r t s = some s') :
      LaneEffect l s (s'.setLane l { state := .check, nonce := none, result := none })

theorem laneStep_cases {l : Nat} {s t : State} (h : laneStep l s = .next t) : LaneEffect l s t := by
  unfold laneStep at h
  split at h
  · rename_i hp
    split at h
    · cases h; exact .none (.inr (by simp [*]))
    · rename_i x hx
      split at h
      · cases h; exact .none (.inr (by simp [*]))
      · rename_i hs
        unfold laneCheck at h
        split at h
        · cases h
          split
          · exact .ends x hp hx hs ‹_› ‹_›
          · rename_i hn
            exact .exits x hp hx hs ‹_› (eq_false_of_ne_true hn)
        · rename_i hn
          cases h; exact .goesOn x hp hx hs (eq_false_of_ne_true hn)
      · cases h; exact .fetches x hp hx ‹_›
      · rename_i hs
        unfold laneEval at h
        split at h
        · cases h
        · split at h
          · cases h
          · split at h
            · cases h
            · cases h; exact .evaluates x _ _ _ hp hx hs ‹_› ‹_› ‹_›
      · rename_i hs
        unfold lanePublish at h
        split at h
        · cases h
        · split at h
          · cases h
          · split at h
            · cases h
            · split at h
              · cases h
              · cases h; exact .publishes x _ _ _ _ hp hx hs ‹_› ‹_› ‹_› ‹_›
      · cases h; exact .none (.inr (by simp [*]))
  · cases h; exact .none (.inl ‹_›)

/-- Everything a command that is carried out can do: the state after its effect and the data of its answer
(the pseudocode of rules R80 to R86, R108, R120 to R130, R140 and R141). -/
inductive Carried (s : State) : Instr → State → FixedWord → Prop where
  | nop (f) : Carried s (.nop f) s 0
  | reset (f) : Carried s (.reset f) s.resetBlock 0
  | clrErr (f) : Carried s (.clrErr f) (s.setErr 0) 0
  | wrTable (f) (hp : s.phase = .loading) (h : s.loadPtr ≠ s.cfg.N) : Carried s (.wrTable f) (s.appendTable f.data) 0
  | wrCommit (f) (hp : s.phase = .loading) : Carried s (.wrCommit f) (s.setCommit f.data) 0
  | wrTarget (f) (hp : s.phase = .loading) : Carried s (.wrTarget f) (s.setTarget f.data) 0
  | arm (f) (hp : s.phase = .loading) (h : ¬ (s.loadPtr < s.cfg.N ∨ s.cValid = false ∨ s.tValid = false)) :
      Carried s (.arm f) (s.setPhase .armed) 0
  | eval (f) (c t : FixedWord) (e : Evaluation) (hp : s.phase = .armed ∨ s.phase = .stopped) (hc : s.commit = some c)
      (he : evaluate s.cfg s.table c f.data = some e) (ht : s.target = some t) :
      Carried s (.eval f) (s.setContext f.data e.result e.idx (isHit e.result t)) e.result
  | search (f) (hp : s.phase = .armed) : Carried s (.search f) s.startRun 0
  | halt (f) (hp : s.phase = .searching) : Carried s (.halt f) (s.setStop true) 0
  | rdStatus (f) : Carried s (.rdStatus f) s s.statusWord
  | rdConst (f v) (h : (constSpace s.cfg)[f.addr.toNat]? = some v) : Carried s (.rdConst f) s v
  | rdCommit (f v) (hv : s.cValid = true) (h : s.commit = some v) : Carried s (.rdCommit f) s v
  | rdTarget (f v) (hv : s.tValid = true) (h : s.target = some v) : Carried s (.rdTarget f) s v
  | rdTable (f v) (hN : f.addr.toNat < s.cfg.N) (hl : f.addr.toNat < s.loadPtr)
      (h : Memory.read s.table f.addr.toNat = some v) : Carried s (.rdTable f) s v
  | rdNonce (f v) (hv : s.done = true) (h : s.nonce = some v) : Carried s (.rdNonce f) s v
  | rdResult (f v) (hv : s.done = true) (h : s.result = some v) : Carried s (.rdResult f) s v
  | rdIdx (f v) (ha : f.addr.toNat < 10) (hv : s.done = true) (h : s.readIdx f.addr.toNat = some v) :
      Carried s (.rdIdx f) s v
  | rdCursor (f) : Carried s (.rdCursor f) s s.cursor
  | rdBestNonce (f v) (hv : s.bestValid = true) (h : s.bestNonce = some v) : Carried s (.rdBestNonce f) s v
  | rdBestResult (f v) (hv : s.bestValid = true) (h : s.bestResult = some v) : Carried s (.rdBestResult f) s v

/-- The answer with a register's value, as a command that was carried out or a fault. -/
theorem finishWith_next {s t : State} {cell : ValueCell} {v : Option FixedWord} (h : finishWith s cell v = .next t) :
    ∃ d, v = some d ∧ t = s.respondOk d := by
  rcases finishWith_cases s cell v with ⟨d, hd, h'⟩ | ⟨-, h'⟩
  · rw [h'] at h; cases h; exact ⟨d, hd, rfl⟩
  · rw [h'] at h; cases h

/-- A checked command that has a next state: it fails, or its effect has that next state. -/
theorem checked_next {use : FieldUse} {permitted : Phase → Bool} {f : Fields} {s t : State}
    {o : Host.Outcome State Fault Refusal} (h : checked use permitted f s o = .next t) :
    (∃ e, t = s.fail e) ∨ (use.ok f = true ∧ permitted s.phase = true ∧ o = .next t) := by
  rcases checked_cases use permitted f s o with ⟨-, h'⟩ | ⟨-, -, h'⟩ | ⟨hf, hp, h'⟩ <;> rw [h'] at h
  · cases h; exact .inl ⟨_, rfl⟩
  · cases h; exact .inl ⟨_, rfl⟩
  · exact .inr ⟨hf, hp, h⟩

/-- A register read behind its valid bit, when it has a next state. -/
theorem guardedRead_next {s t : State} {valid : Bool} {cell : ValueCell} {v : Option FixedWord}
    (h : (if valid = false then raise s .noData else finishWith s cell v) = .next t) :
    (∃ e, t = s.fail e) ∨ (valid = true ∧ ∃ d, v = some d ∧ t = s.respondOk d) := by
  cases valid
  · simp only [if_true] at h; cases h; exact .inl ⟨_, rfl⟩
  · exact .inr ⟨rfl, finishWith_next (by simpa using h)⟩

/-- Everything a command can do when it has a next state: it fails with an error code, or it is carried out and answered. -/
theorem exec_cases {i : Instr} {s t : State} (h : exec i s = .next t) :
    (∃ e, t = s.fail e) ∨ ∃ s' d, Carried s i s' d ∧ t = s'.respondOk d := by
  cases i <;> rename_i f <;> rcases checked_next h with h | ⟨-, hp, h⟩ <;> first | exact .inl h | skip
  case nop => cases h; exact .inr ⟨_, _, .nop f, rfl⟩
  case reset => cases h; exact .inr ⟨_, _, .reset f, rfl⟩
  case clrErr => cases h; exact .inr ⟨_, _, .clrErr f, rfl⟩
  case wrTable =>
    split at h
    · cases h; exact .inl ⟨_, rfl⟩
    · cases h; exact .inr ⟨_, _, .wrTable f (by revert hp; cases s.phase <;> simp [inLoading]) ‹_›, rfl⟩
  case wrCommit => cases h; exact .inr ⟨_, _, .wrCommit f (by revert hp; cases s.phase <;> simp [inLoading]), rfl⟩
  case wrTarget => cases h; exact .inr ⟨_, _, .wrTarget f (by revert hp; cases s.phase <;> simp [inLoading]), rfl⟩
  case arm =>
    split at h
    · cases h; exact .inl ⟨_, rfl⟩
    · cases h; exact .inr ⟨_, _, .arm f (by revert hp; cases s.phase <;> simp [inLoading]) ‹_›, rfl⟩
  case eval =>
    rcases evalContext_cases h with ⟨c, e, t', hc, he, ht, h⟩ | ⟨cell, h, -⟩
    · cases h
      exact .inr ⟨_, _, .eval f c t' e (by revert hp; cases s.phase <;> simp [inArmedOrStopped]) hc he ht, rfl⟩
    · cases h
  case search => cases h; exact .inr ⟨_, _, .search f (by revert hp; cases s.phase <;> simp [inArmed]), rfl⟩
  case halt => cases h; exact .inr ⟨_, _, .halt f (by revert hp; cases s.phase <;> simp [inSearching]), rfl⟩
  case rdStatus => cases h; exact .inr ⟨_, _, .rdStatus f, rfl⟩
  case rdConst =>
    split at h
    · cases h; exact .inr ⟨_, _, .rdConst f _ ‹_›, rfl⟩
    · cases h; exact .inl ⟨_, rfl⟩
  case rdCommit =>
    rcases guardedRead_next h with h | ⟨hv, d, hd, rfl⟩
    exacts [.inl h, .inr ⟨_, _, .rdCommit f d hv hd, rfl⟩]
  case rdTarget =>
    rcases guardedRead_next h with h | ⟨hv, d, hd, rfl⟩
    exacts [.inl h, .inr ⟨_, _, .rdTarget f d hv hd, rfl⟩]
  case rdTable =>
    split at h
    · cases h; exact .inl ⟨_, rfl⟩
    · split at h
      · cases h; exact .inl ⟨_, rfl⟩
      · obtain ⟨d, hd, rfl⟩ := finishWith_next h
        exact .inr ⟨_, _, .rdTable f d (by omega) (by omega) hd, rfl⟩
  case rdNonce =>
    rcases guardedRead_next h with h | ⟨hv, d, hd, rfl⟩
    exacts [.inl h, .inr ⟨_, _, .rdNonce f d hv hd, rfl⟩]
  case rdResult =>
    rcases guardedRead_next h with h | ⟨hv, d, hd, rfl⟩
    exacts [.inl h, .inr ⟨_, _, .rdResult f d hv hd, rfl⟩]
  case rdIdx =>
    split at h
    · cases h; exact .inl ⟨_, rfl⟩
    · rcases guardedRead_next h with h | ⟨hv, d, hd, rfl⟩
      exacts [.inl h, .inr ⟨_, _, .rdIdx f d (by omega) hv hd, rfl⟩]
  case rdCursor => cases h; exact .inr ⟨_, _, .rdCursor f, rfl⟩
  case rdBestNonce =>
    rcases guardedRead_next h with h | ⟨hv, d, hd, rfl⟩
    exacts [.inl h, .inr ⟨_, _, .rdBestNonce f d hv hd, rfl⟩]
  case rdBestResult =>
    rcases guardedRead_next h with h | ⟨hv, d, hd, rfl⟩
    exacts [.inl h, .inr ⟨_, _, .rdBestResult f d hv hd, rfl⟩]

/-- Everything a step can do when it has a next state (rule R49): nothing is left on the agenda, or its first item happens. -/
theorem step_cases {s t : State} (h : step s = .next t) :
    (s.agenda = [] ∧ t = s) ∨
      (∃ w es, s.agenda = .command w :: es ∧
        ((∃ e, t = (s.setAgenda es).fail e) ∨
          ∃ i s' d, decode w = .ok i ∧ Carried (s.setAgenda es) i s' d ∧ t = s'.respondOk d)) ∨
      (∃ l es, s.agenda = .lane l :: es ∧ LaneEffect l (s.setAgenda es) t) ∨
      (∃ es, s.agenda = .reset :: es ∧ t = (s.setAgenda es).resetBlock) := by
  unfold step at h
  split at h
  · cases h; exact .inl ⟨‹_›, rfl⟩
  · rename_i e es he
    cases e with
    | command w =>
      refine .inr (.inl ⟨w, es, he, ?_⟩)
      simp only [handle, takeCommand] at h
      split at h
      · rcases exec_cases h with h | ⟨s', d, hc, ht⟩
        exacts [.inl h, .inr ⟨_, s', d, ‹_›, hc, ht⟩]
      · cases h; exact .inl ⟨_, rfl⟩
    | lane l => exact .inr (.inr (.inl ⟨l, es, he, laneStep_cases h⟩))
    | reset => cases h; exact .inr (.inr (.inr ⟨es, he, rfl⟩))

end Sys2Proof.Machine
end

