-- ==== Sys2Proof/Laws/PerInstr.lean ====
section
/-!
SUPPORT. The layout of every command's word, one lemma per constructor of Instr: the family FieldLayout says that the opcode
byte and the three fields of `encode i` are those of `i` (spec/30_encoding.md rule R60).
-/

namespace Sys2Proof.Laws

/-- Bit `i` of the opcode byte sits above the three fields. -/
theorem opcode_offset (i : Nat) :
    ¬ 312 + i < 256 ∧ ¬ 312 + i - 256 < 32 ∧ ¬ 312 + i - 256 - 32 < 24 ∧ 312 + i - 256 - 32 - 24 = i :=
  ⟨by omega, by omega, by omega, by omega⟩

/-- Bit `i` of `rsv` sits above `addr` and `data`. -/
theorem rsv_offset (i : Nat) : ¬ 288 + i < 256 ∧ ¬ 288 + i - 256 < 32 ∧ 288 + i - 256 - 32 = i :=
  ⟨by omega, by omega, by omega⟩

/-- Bit `i` of `addr` sits above `data`. -/
theorem addr_offset (i : Nat) : ¬ 256 + i < 256 ∧ 256 + i - 256 = i := ⟨by omega, by omega⟩

/-- The fields of the word `{opcode, rsv, addr, data}` are what was put there. -/
theorem fields_of_layout (op : BitVec 8) (f : Fields) :
    opcodeField (layoutWord op f) = op ∧ fieldsOf (layoutWord op f) = f := by
  obtain ⟨r, a, d⟩ := f
  refine ⟨BitVec.eq_of_getLsbD_eq fun i hi => ?_, ?_⟩
  · obtain ⟨h1, h2, h3, h4⟩ := opcode_offset i
    simp only [opcodeField, layoutWord, BitVec.getLsbD_extractLsb', BitVec.getLsbD_append, h1, h2, h3, h4, hi]
    simp
  · simp only [fieldsOf, layoutWord, Fields.mk.injEq]
    refine ⟨?_, ?_, ?_⟩ <;> refine BitVec.eq_of_getLsbD_eq fun i hi => ?_
    · obtain ⟨h1, h2, h3⟩ := rsv_offset i
      simp only [BitVec.getLsbD_extractLsb', BitVec.getLsbD_append, h1, h2, h3, hi]
      simp [hi]
    · obtain ⟨h1, h2⟩ := addr_offset i
      simp only [BitVec.getLsbD_extractLsb', BitVec.getLsbD_append, h1, h2, hi]
      simp [hi]
    · simp only [BitVec.getLsbD_extractLsb', BitVec.getLsbD_append, Nat.zero_add, hi]
      simp [hi]

/-- The opcode byte and the fields of the encoded command are the command's own (rule R60). -/
def FieldLayout.Statement (i : Instr) : Prop :=
  opcodeField (encode i) = i.opcode ∧ fieldsOf (encode i) = i.fields

theorem FieldLayout.nop (f : Fields) : FieldLayout.Statement (.nop f) := fields_of_layout _ f

theorem FieldLayout.reset (f : Fields) : FieldLayout.Statement (.reset f) := fields_of_layout _ f

theorem FieldLayout.clrErr (f : Fields) : FieldLayout.Statement (.clrErr f) := fields_of_layout _ f

theorem FieldLayout.wrTable (f : Fields) : FieldLayout.Statement (.wrTable f) := fields_of_layout _ f

theorem FieldLayout.wrCommit (f : Fields) : FieldLayout.Statement (.wrCommit f) := fields_of_layout _ f

theorem FieldLayout.wrTarget (f : Fields) : FieldLayout.Statement (.wrTarget f) := fields_of_layout _ f

theorem FieldLayout.arm (f : Fields) : FieldLayout.Statement (.arm f) := fields_of_layout _ f

theorem FieldLayout.eval (f : Fields) : FieldLayout.Statement (.eval f) := fields_of_layout _ f

theorem FieldLayout.search (f : Fields) : FieldLayout.Statement (.search f) := fields_of_layout _ f

theorem FieldLayout.halt (f : Fields) : FieldLayout.Statement (.halt f) := fields_of_layout _ f

theorem FieldLayout.rdStatus (f : Fields) : FieldLayout.Statement (.rdStatus f) := fields_of_layout _ f

theorem FieldLayout.rdConst (f : Fields) : FieldLayout.Statement (.rdConst f) := fields_of_layout _ f

theorem FieldLayout.rdCommit (f : Fields) : FieldLayout.Statement (.rdCommit f) := fields_of_layout _ f

theorem FieldLayout.rdTarget (f : Fields) : FieldLayout.Statement (.rdTarget f) := fields_of_layout _ f

theorem FieldLayout.rdTable (f : Fields) : FieldLayout.Statement (.rdTable f) := fields_of_layout _ f

theorem FieldLayout.rdNonce (f : Fields) : FieldLayout.Statement (.rdNonce f) := fields_of_layout _ f

theorem FieldLayout.rdResult (f : Fields) : FieldLayout.Statement (.rdResult f) := fields_of_layout _ f

theorem FieldLayout.rdIdx (f : Fields) : FieldLayout.Statement (.rdIdx f) := fields_of_layout _ f

theorem FieldLayout.rdCursor (f : Fields) : FieldLayout.Statement (.rdCursor f) := fields_of_layout _ f

theorem FieldLayout.rdBestNonce (f : Fields) : FieldLayout.Statement (.rdBestNonce f) := fields_of_layout _ f

theorem FieldLayout.rdBestResult (f : Fields) : FieldLayout.Statement (.rdBestResult f) := fields_of_layout _ f

end Sys2Proof.Laws
end

