-- ==== Sys2Proof/Laws/Run.lean ====
section
/-!
SUPPORT. One step of a run of the machine: what `Host.Core.run` does with the first of its steps.
-/

namespace Sys2Proof.Machine

/-- A run whose first step has a next state goes on from there. -/
theorem core_run_next {s s' : State} (h : step s = .next s') (k : Nat) :
    Sys2Proof.core.run (k + 1) s = Sys2Proof.core.run k s' := by
  have hs : Sys2Proof.core.step s = .next s' := h
  have e := Host.Core.run.eq_2 Sys2Proof.core s k
  rw [hs] at e
  exact e

/-- A run that ends in a state took each of its steps. -/
theorem core_run_inv {s t : State} {k : Nat} (h : Sys2Proof.core.run (k + 1) s = .next t) :
    ∃ s' : State, step s = .next s' ∧ Sys2Proof.core.run k s' = .next t := by
  have e := Host.Core.run.eq_2 Sys2Proof.core s k
  cases hs : Sys2Proof.core.step s with
  | next s' => rw [hs] at e; exact ⟨s', hs, e.symm.trans h⟩
  | fault r => rw [hs] at e; cases e.symm.trans h
  | refused r => rw [hs] at e; cases e.symm.trans h

end Sys2Proof.Machine
end

