-- ==== Sys2Proof/Laws/Schedule.lean ====
section
/-!
SUPPORT. Enabled lane steps and schedules: what `laneEnabled` says, one position of an execution, a schedule that is weakly fair from
every state, and that the execution of a list of items is the run of the machine with that list as its agenda.
-/

namespace Sys2Proof.Machine

/-- What it is for a lane's step to be enabled (rule R146). -/
theorem State.laneEnabled_iff {s : State} {l : Nat} :
    s.laneEnabled l = true ↔ s.phase = .searching ∧ ∃ x, s.lanes[l]? = some x ∧ x.state.active = true := by
  unfold State.laneEnabled
  split <;> simp [*]

/-- A lane is disabled exactly when its step is not enabled. -/
theorem disabled_iff {s : State} {l : Nat} : Disabled l s ↔ s.laneEnabled l = false := by
  rw [← Bool.not_eq_true, State.laneEnabled_iff]
  unfold Disabled
  constructor
  · rintro (h | h) ⟨hp, x, hx, ha⟩
    · exact h hp
    · rcases h x hx with h | h <;> rw [h] at ha <;> cases ha
  · intro h
    by_cases hp : s.phase = .searching
    · refine .inr fun x hx => ?_
      have := fun ha => h ⟨hp, x, hx, ha⟩
      revert this
      cases x.state <;> simp [LaneState.active]
    · exact .inl hp

@[simp] theorem stateAt_zero (s : State) (sched : Schedule) : stateAt s sched 0 = some (s.setAgenda []) := rfl

/-- One position of an execution goes on. -/
theorem stateAt_succ {s t u : State} {sched : Schedule} {k : Nat} (h : stateAt s sched k = some t)
    (hs : step (t.setAgenda (sched k).toList) = .next u) : stateAt s sched (k + 1) = some u := by
  simp [stateAt, h, hs]

/-- An execution that has a state after a position took a step there. -/
theorem stateAt_succ_inv {s u : State} {sched : Schedule} {k : Nat} (h : stateAt s sched (k + 1) = some u) :
    ∃ t, stateAt s sched k = some t ∧ step (t.setAgenda (sched k).toList) = .next u := by
  unfold stateAt at h
  split at h
  · split at h
    · cases h; exact ⟨_, ‹_›, ‹_›⟩
    · cases h
    · cases h
  · cases h

@[simp] theorem laneStepsTaken_zero (s : State) (sched : Schedule) : laneStepsTaken s sched 0 = 0 := rfl

/-- One position adds one exactly when an enabled lane is chosen there. -/
theorem laneStepsTaken_succ {s t : State} {sched : Schedule} {k : Nat} (h : stateAt s sched k = some t) :
    laneStepsTaken s sched (k + 1) = laneStepsTaken s sched k + (t.takesLaneStep (sched k)).toNat := by
  simp [laneStepsTaken, h]

/-- A schedule that chooses every lane again and again is weakly fair from every state. -/
theorem weaklyFair_of_recurring {sched : Schedule} (h : ∀ l k : Nat, ∃ j, k ≤ j ∧ sched j = some (.lane l)) (s : State) :
    WeaklyFair s sched := fun l k => (h l k).imp fun _ hj => ⟨hj.1, .inl hj.2⟩

/-- There is such a schedule, and it holds no reset and no command. -/
theorem exists_recurring : ∃ sched : Schedule, (∀ l k : Nat, ∃ j, k ≤ j ∧ sched j = some (.lane l)) ∧
    ∀ k e, sched k = some e → ∃ l, e = .lane l :=
  ⟨fun k => some (.lane k.unpair.1), fun l k => ⟨Nat.pair l k, Nat.right_le_pair l k, by simp⟩,
    fun _ _ h => ⟨_, (Option.some.inj h).symm⟩⟩

/-- The same outcome with these items still to come. -/
def withAgenda (es : List Event) (o : Host.Outcome State Fault Refusal) : Host.Outcome State Fault Refusal :=
  match o with
  | .next t => .next (t.setAgenda es)
  | .fault r => .fault r
  | .refused r => .refused r

/-- The common checks do not look at the items still to come. -/
theorem checked_setAgenda {use : FieldUse} {permitted : Phase → Bool} {f : Fields} {s : State} {es : List Event}
    {o o' : Host.Outcome State Fault Refusal} (h : o' = withAgenda es o) :
    checked use permitted f (s.setAgenda es) o' = withAgenda es (checked use permitted f s o) := by
  subst h
  unfold checked
  split
  · rfl
  · rw [State.setAgenda_phase]
    split <;> rfl

/-- Answering with a register does not look at the items still to come. -/
theorem finishWith_setAgenda (s : State) (es : List Event) (cell : ValueCell) (v : Option FixedWord) :
    finishWith (s.setAgenda es) cell v = withAgenda es (finishWith s cell v) := by
  cases v <;> rfl

/-- A choice between two outcomes, with the items still to come put back. -/
theorem withAgenda_ite (es : List Event) (p : Prop) [Decidable p] (a b : Host.Outcome State Fault Refusal) :
    withAgenda es (if p then a else b) = if p then withAgenda es a else withAgenda es b := apply_ite _ _ _ _

/-- No command looks at the items still to come. -/
theorem exec_setAgenda (i : Instr) (s : State) (es : List Event) :
    exec i (s.setAgenda es) = withAgenda es (exec i s) := by
  cases i <;> refine checked_setAgenda ?_
  case rdCommit f | rdTarget f | rdNonce f | rdResult f | rdBestNonce f | rdBestResult f =>
    rw [withAgenda_ite, ← finishWith_setAgenda]; rfl
  case wrTable f | arm f => rw [withAgenda_ite]; rfl
  case rdTable f | rdIdx f => rw [withAgenda_ite, withAgenda_ite, ← finishWith_setAgenda]; rfl
  case eval f =>
    show evalContext _ _ = withAgenda es (evalContext _ _)
    unfold evalContext
    rw [State.setAgenda_commit, State.setAgenda_cfg, State.setAgenda_table, State.setAgenda_target]
    cases s.commit with
    | none => rfl
    | some c =>
      cases he : evaluate s.cfg s.table c f.data with
      | none => simp only [he]; rfl
      | some e => simp only [he]; cases s.target <;> rfl
  case rdConst f =>
    rw [State.setAgenda_cfg]
    cases (constSpace s.cfg)[f.addr.toNat]? <;> rfl
  all_goals rfl

/-- Publishing a candidate does not look at the items still to come. -/
theorem publish_setAgenda (n r t : FixedWord) (s : State) (es : List Event) :
    publish n r t (s.setAgenda es) = (publish n r t s).map (fun u => u.setAgenda es) := by
  unfold publish
  rw [State.setAgenda_bestValid, State.setAgenda_bestResult]
  split
  · split
    · rfl
    · cases s.bestResult with
      | none => rfl
      | some b => dsimp only; split <;> rfl
  · rfl

/-- No lane looks at the items still to come. -/
theorem laneStep_setAgenda (l : Nat) (s : State) (es : List Event) :
    laneStep l (s.setAgenda es) = withAgenda es (laneStep l s) := by
  unfold laneStep
  rw [State.setAgenda_phase, State.setAgenda_lanes, withAgenda_ite]
  refine if_congr Iff.rfl ?_ rfl
  cases s.lanes[l]? with
  | none => rfl
  | some x =>
    obtain ⟨st, n, r⟩ := x
    cases st with
    | idle => rfl
    | exited => rfl
    | fetch => rfl
    | check =>
      show laneCheck _ _ _ = withAgenda es (laneCheck _ _ _)
      unfold laneCheck
      rw [withAgenda_ite, State.setAgenda_stop]
      refine if_congr Iff.rfl ?_ rfl
      show _ = Host.Outcome.next _
      dsimp only
      rw [apply_ite (fun u : State => u.setAgenda es)]
      rfl
    | eval =>
      show laneEval _ _ _ = withAgenda es (laneEval _ _ _)
      unfold laneEval
      rw [State.setAgenda_commit, State.setAgenda_cfg, State.setAgenda_table]
      cases s.commit with
      | none => rfl
      | some c =>
        cases n with
        | none => rfl
        | some n => dsimp only; cases evaluate s.cfg s.table c n <;> rfl
    | publish =>
      show lanePublish _ _ _ = withAgenda es (lanePublish _ _ _)
      unfold lanePublish
      rw [State.setAgenda_target]
      cases r with
      | none => rfl
      | some r =>
        cases n with
        | none => rfl
        | some n =>
          cases s.target with
          | none => rfl
          | some t => dsimp only; rw [publish_setAgenda]; cases publish n r t s <;> rfl

/-- No agent looks at the items still to come: an item does the same whatever follows it. -/
theorem handle_setAgenda (e : Event) (s : State) (es : List Event) :
    handle e (s.setAgenda es) = withAgenda es (handle e s) := by
  cases e with
  | command w =>
    show takeCommand _ _ = withAgenda es (takeCommand _ _)
    unfold takeCommand
    cases decode w with
    | ok i => exact exec_setAgenda i s es
    | error _ => rfl
  | lane l => exact laneStep_setAgenda l s es
  | reset => rfl

/-- An item does the same whatever follows it on the agenda, and leaves what follows. -/
theorem step_setAgenda_cons (s : State) (e : Event) (es : List Event) :
    step (s.setAgenda (e :: es)) = withAgenda es (step (s.setAgenda [e])) := by
  show handle e ((s.setAgenda [e]).setAgenda es) = withAgenda es (handle e (s.setAgenda []))
  rw [handle_setAgenda]
  show withAgenda es (handle e ((s.setAgenda []).setAgenda [e])) = _
  rw [handle_setAgenda]
  cases handle e (s.setAgenda []) <;> rfl

/-- One position of an execution takes its item off the agenda. -/
theorem step_toList_agenda {s v : State} {o : Option Event} (h : step (s.setAgenda o.toList) = .next v) :
    v.setAgenda [] = v := by
  cases o with
  | none => cases h; rfl
  | some e =>
    have h : step (s.setAgenda [e]) = .next v := h
    rw [step_setAgenda_cons] at h
    revert h
    cases step (s.setAgenda [e]) with
    | next w => rintro ⟨⟩; rfl
    | fault r => rintro ⟨⟩
    | refused r => rintro ⟨⟩

/-- An execution with a state after its first position took a step there and goes on as the execution of the rest. -/
theorem stateAt_shift {s u : State} {sched : Schedule} : ∀ {k : Nat},
    stateAt s sched (k + 1) = some u ↔
      ∃ v, step (s.setAgenda (sched 0).toList) = .next v ∧ stateAt v (fun j => sched (j + 1)) k = some u
  | 0 => by
    constructor
    · intro h
      obtain ⟨t, ht, hs⟩ := stateAt_succ_inv h
      cases ht
      exact ⟨u, hs, congrArg some (step_toList_agenda (s := s) hs)⟩
    · rintro ⟨v, hv, hu⟩
      cases (congrArg some (step_toList_agenda hv)).symm.trans hu
      exact stateAt_succ rfl hv
  | k + 1 => by
    constructor
    · intro h
      obtain ⟨t, ht, hs⟩ := stateAt_succ_inv h
      obtain ⟨v, hv, hu⟩ := stateAt_shift.1 ht
      exact ⟨v, hv, stateAt_succ hu hs⟩
    · rintro ⟨v, hv, hu⟩
      obtain ⟨t, ht, hs⟩ := stateAt_succ_inv hu
      exact stateAt_succ (stateAt_shift.2 ⟨v, hv, ht⟩) hs

/-- The execution of a list of items is the run of the machine with that list as its agenda. -/
theorem stateAt_list_iff_run {u : State} : ∀ (es : List Event) (s : State),
    stateAt s (fun k => es[k]?) es.length = some u ↔ Sys2Proof.core.run es.length (s.setAgenda es) = .next u
  | [], s => ⟨fun h => congrArg Host.Outcome.next (Option.some.inj h), fun h => by cases h; rfl⟩
  | e :: es, s => by
    rw [List.length_cons, stateAt_shift]
    constructor
    · rintro ⟨v, hv, hu⟩
      have h1 : step (s.setAgenda (e :: es)) = .next (v.setAgenda es) := by
        rw [step_setAgenda_cons]; exact congrArg (withAgenda es) hv
      rw [core_run_next h1]
      exact (stateAt_list_iff_run es v).1 hu
    · intro h
      obtain ⟨w, hw, hr⟩ := core_run_inv h
      rw [step_setAgenda_cons] at hw
      cases hv : step (s.setAgenda [e]) with
      | next v =>
        rw [hv] at hw
        cases hw
        exact ⟨v, hv, (stateAt_list_iff_run es v).2 hr⟩
      | fault r => rw [hv] at hw; cases hw
      | refused r => rw [hv] at hw; cases hw

end Sys2Proof.Machine
end

