-- ==== Sys2Proof/Machine/Assembler.lean ====
section
/-!
DEFINITION. The written form of a command, spec/30_encoding.md rule R71: `MNEMONIC`, `MNEMONIC addr`, `MNEMONIC data` or
`.word h`, one per line. A line is a list of characters.
-/

namespace Sys2Proof.Machine

/-- The mnemonics of the opcode map (rule R63). -/
def mnemonicMap : List (List Char × (Fields → Instr)) :=
  [ ("NOP".toList, Instr.nop), ("RESET".toList, Instr.reset), ("CLR_ERR".toList, Instr.clrErr),
    ("WR_TABLE".toList, Instr.wrTable), ("WR_COMMIT".toList, Instr.wrCommit), ("WR_TARGET".toList, Instr.wrTarget),
    ("ARM".toList, Instr.arm), ("EVAL".toList, Instr.eval), ("SEARCH".toList, Instr.search), ("HALT".toList, Instr.halt),
    ("RD_STATUS".toList, Instr.rdStatus), ("RD_CONST".toList, Instr.rdConst), ("RD_COMMIT".toList, Instr.rdCommit),
    ("RD_TARGET".toList, Instr.rdTarget), ("RD_TABLE".toList, Instr.rdTable), ("RD_NONCE".toList, Instr.rdNonce),
    ("RD_RESULT".toList, Instr.rdResult), ("RD_IDX".toList, Instr.rdIdx), ("RD_CURSOR".toList, Instr.rdCursor),
    ("RD_BEST_NONCE".toList, Instr.rdBestNonce), ("RD_BEST_RESULT".toList, Instr.rdBestResult) ]

/-- The value of a decimal digit. -/
def decimalDigit (c : Char) : Option Nat :=
  if '0'.toNat ≤ c.toNat ∧ c.toNat ≤ '9'.toNat then some (c.toNat - '0'.toNat) else none

/-- The value of a hexadecimal digit, in either case. -/
def hexDigit (c : Char) : Option Nat :=
  if 'A'.toNat ≤ c.toNat ∧ c.toNat ≤ 'F'.toNat then some (c.toNat - 'A'.toNat + 10)
  else if 'a'.toNat ≤ c.toNat ∧ c.toNat ≤ 'f'.toNat then some (c.toNat - 'a'.toNat + 10)
  else decimalDigit c

/-- A digit sequence, most significant digit first. -/
def digitsValue (digit : Char → Option Nat) (base : Nat) : Nat → List Char → Option Nat
  | acc, [] => some acc
  | acc, c :: cs =>
    match digit c with
    | some d => digitsValue digit base (acc * base + d) cs
    | none => none

/-- A number, decimal or `0x` hexadecimal of up to 64 digits (rule R71). -/
def number (cs : List Char) : Option Nat :=
  match cs with
  | [] => none
  | '0' :: 'x' :: d :: ds => if ds.length < 64 then digitsValue hexDigit 16 0 (d :: ds) else none
  | c :: cs => digitsValue decimalDigit 10 0 (c :: cs)

/-- The words of a line up to its comment (rule R71: `;` starts a comment). -/
def lineWords (line : List Char) : List (List Char) :=
  ((line.takeWhile (fun c => c != ';')).splitOnP (fun c => c == ' ')).filter (fun w => !w.isEmpty)

/-- One line of assembler text as a command word (rule R71); `none` when it has no meaning there. -/
def assembleLine (line : List Char) : Option CommandWord :=
  match lineWords line with
  | [m] =>
    match mnemonicMap.lookup m with
    | some command =>
      let i := command { rsv := 0, addr := 0, data := 0 }
      if i.usesAddr || i.usesData then none else some (encode i)
    | none => none
  | [m, operand] =>
    if m = ".word".toList then
      if operand.length = 80 then (digitsValue hexDigit 16 0 operand).map (BitVec.ofNat 320) else none
    else
      match mnemonicMap.lookup m, number operand with
      | some command, some v =>
        let i := command { rsv := 0, addr := BitVec.ofNat 32 v, data := 0 }
        let j := command { rsv := 0, addr := 0, data := BitVec.ofNat 256 v }
        if i.usesAddr && v < 2 ^ 32 then some (encode i)
        else if j.usesData && v < 2 ^ 256 then some (encode j)
        else none
      | _, _ => none
  | _ => none

end Sys2Proof.Machine
end

