-- ==== Sys2Proof/Tests/Slice0.lean ====
section
/-!
SUPPORT. The session's own tests. Expected results are the vectors and programs of spec/95_test_vectors.md, named in each test's
comment. The second half shows, for every statement with hypotheses, states and operands that meet them.
-/

set_option exponentiation.threshold 400

namespace Sys2Proof.Tests

open Sys2Proof.Machine Sys2Proof.Safety

/-! ## Configurations and states -/

/-- The moduli of test configuration TC-A. -/
def primesA : List FixedWord := [251, 241, 239, 233, 229, 227, 223, 211, 199, 197]

/-- Test configuration TC-A. -/
def tcA : Config where
  P := primesA
  Q := [251, 241, 239, 233, 229]
  N := 16
  W := 2
  cursorInit := 0
  legal := by decide

/-- Test configuration TC-D: `Q` is not a prefix of `P`. -/
def tcD : Config where
  P := primesA
  Q := [13, 11, 7, 5, 3]
  N := 16
  W := 2
  cursorInit := 0
  legal := by decide

/-- The moduli of test configuration TC-C. -/
def primesC : List FixedWord :=
  [2 ^ 256 - 189, 2 ^ 256 - 357, 2 ^ 256 - 435, 2 ^ 256 - 587, 2 ^ 256 - 617, 2 ^ 256 - 923, 2 ^ 256 - 1053, 2 ^ 256 - 1299,
    2 ^ 256 - 1539, 2 ^ 256 - 1883].map (BitVec.ofNat 256)

/-- Test configuration TC-C, `N = 15`. -/
def tcC : Config where
  P := primesC
  Q := primesC.take 5
  N := 15
  W := 1
  cursorInit := 0
  legal := by decide

/-- The table of TC-A and TC-C: `TABLE[i] = 2^i + 2^(255-i)`. -/
def tableOf (count : Nat) : Memory := (List.range count).map (fun i => (i, BitVec.ofNat 256 (2 ^ i + 2 ^ (255 - i))))

/-- The commitment of TC-A. -/
def commitA : FixedWord := 0x00112233445566778899AABBCCDDEEFF00112233445566778899AABBCCDDEEFF

/-- `TGT-A`. -/
def targetA : FixedWord := 0x2FFFFFFFFFFFFFFFFFFFFFFFFFFFFFFFFFFFFFFFFFFFFFFFFFFFFFFFFFFFFFFF

/-- `evaluate` of nonce 1 under TC-A (vector V-A2). -/
def result1 : FixedWord := 0x22332233445566778899AABBCCDDEEFF00112233445566778899AABBCCDDAABB

/-- `evaluate` of nonce 2 under TC-A (vector V-A3). -/
def result2 : FixedWord := 0x15512233445566778899AABBCCDDEEFF00112233445566778899AABBCCDDEC57

/-- TC-A, freshly reset. -/
def fresh : State := State.resetOf tcA

/-- TC-A after commands 1 to 18 of program P1. -/
def loaded : State :=
  { fresh with
    table := tableOf 16, loadPtr := 16, commit := some commitA, cValid := true, target := some targetA, tValid := true }

/-- TC-A after command 19 of program P1. -/
def armedState : State := { loaded with phase := .armed }

/-- A run of TC-A with these two lanes. -/
def running (x y : Lane) : State := { armedState with phase := .searching, cursor := 2, lanes := [x, y] }

/-- A lane in `CHECK`. -/
def inCheck : Lane := ⟨.check, none, none⟩

/-- A lane that has exited. -/
def hasExited : Lane := ⟨.exited, none, none⟩

/-- The same run after nonce 1 was accepted. -/
def accepted (x y : Lane) : State :=
  { running x y with stop := true, bestValid := true, bestNonce := some 1, bestResult := some result1 }

/-- The last response of a step, if it has a next state. -/
def answer (o : Host.Outcome State Fault Refusal) : Option ResponseWord :=
  match o with
  | .next t => t.responses.getLast?
  | .fault _ => none
  | .refused _ => none

/-- What a step leaves in one field, if it has a next state. -/
def field {α : Type} (g : State → α) (o : Host.Outcome State Fault Refusal) : Option α :=
  match o with
  | .next t => some (g t)
  | .fault _ => none
  | .refused _ => none

/-- A command with no operand. -/
def noOperand : Fields := ⟨0, 0, 0⟩

/-- A command with an address operand. -/
def withAddr (a : BitVec 32) : Fields := ⟨0, a, 0⟩

/-- A command with a data operand. -/
def withData (d : FixedWord) : Fields := ⟨0, 0, d⟩

/-! ## WellFormed refuses an ill-formed term for each check (rule R66) -/

theorem test_wellFormed_refuses_rsv : (Instr.nop ⟨1, 0, 0⟩).wellFormed = false := by decide

theorem test_wellFormed_refuses_addr : (Instr.wrTable ⟨0, 3, 0⟩).wellFormed = false := by decide

theorem test_wellFormed_refuses_data : (Instr.rdConst ⟨0, 0, 1⟩).wellFormed = false := by decide

theorem test_wellFormed_accepts :
    (Instr.rdIdx (withAddr 9)).wellFormed = true ∧ (Instr.eval (withData 1000)).wellFormed = true ∧
      (Instr.halt noOperand).wellFormed = true := by decide

/-! ## Decoding: the words V-E1 to V-E24 -/

theorem test_decode_control :
    decode 0x00000000000000000000000000000000000000000000000000000000000000000000000000000000 = .ok (.nop noOperand) ∧
    decode 0x01000000000000000000000000000000000000000000000000000000000000000000000000000000 = .ok (.reset noOperand) ∧
    decode 0x02000000000000000000000000000000000000000000000000000000000000000000000000000000 = .ok (.clrErr noOperand) := by
  decide

theorem test_decode_load :
    decode 0x10000000000000008000000000000000000000000000000000000000000000000000000000000001 =
      .ok (.wrTable (withData 0x8000000000000000000000000000000000000000000000000000000000000001)) ∧
    decode 0x110000000000000000112233445566778899AABBCCDDEEFF00112233445566778899AABBCCDDEEFF =
      .ok (.wrCommit (withData commitA)) ∧
    decode 0x12000000000000002FFFFFFFFFFFFFFFFFFFFFFFFFFFFFFFFFFFFFFFFFFFFFFFFFFFFFFFFFFFFFFF =
      .ok (.wrTarget (withData targetA)) ∧
    decode 0x13000000000000000000000000000000000000000000000000000000000000000000000000000000 = .ok (.arm noOperand) := by
  decide

theorem test_decode_evaluate_and_search :
    decode 0x200000000000000000000000000000000000000000000000000000000000000000000000000003E8 =
      .ok (.eval (withData 1000)) ∧
    decode 0x30000000000000000000000000000000000000000000000000000000000000000000000000000000 = .ok (.search noOperand) ∧
    decode 0x31000000000000000000000000000000000000000000000000000000000000000000000000000000 = .ok (.halt noOperand) := by
  decide

theorem test_decode_read_configuration :
    decode 0x40000000000000000000000000000000000000000000000000000000000000000000000000000000 = .ok (.rdStatus noOperand) ∧
    decode 0x41000000000000120000000000000000000000000000000000000000000000000000000000000000 =
      .ok (.rdConst (withAddr 18)) ∧
    decode 0x42000000000000000000000000000000000000000000000000000000000000000000000000000000 = .ok (.rdCommit noOperand) ∧
    decode 0x43000000000000000000000000000000000000000000000000000000000000000000000000000000 = .ok (.rdTarget noOperand) ∧
    decode 0x440000000000000F0000000000000000000000000000000000000000000000000000000000000000 =
      .ok (.rdTable (withAddr 15)) := by
  decide

theorem test_decode_read_results :
    decode 0x45000000000000000000000000000000000000000000000000000000000000000000000000000000 = .ok (.rdNonce noOperand) ∧
    decode 0x46000000000000000000000000000000000000000000000000000000000000000000000000000000 = .ok (.rdResult noOperand) ∧
    decode 0x47000000000000090000000000000000000000000000000000000000000000000000000000000000 = .ok (.rdIdx (withAddr 9)) ∧
    decode 0x48000000000000000000000000000000000000000000000000000000000000000000000000000000 = .ok (.rdCursor noOperand) ∧
    decode 0x49000000000000000000000000000000000000000000000000000000000000000000000000000000 = .ok (.rdBestNonce noOperand) ∧
    decode 0x4A000000000000000000000000000000000000000000000000000000000000000000000000000000 =
      .ok (.rdBestResult noOperand) := by
  decide

/-- Vectors V-E22, V-E23 and V-E24. -/
theorem test_decode_undefined :
    decode 0x03000000000000000000000000000000000000000000000000000000000000000000000000000000 =
      .error (.undefinedOpcode 0x03) ∧
    decode 0xFFFFFFFFFFFFFFFFFFFFFFFFFFFFFFFFFFFFFFFFFFFFFFFFFFFFFFFFFFFFFFFFFFFFFFFFFFFFFFFF =
      .error (.undefinedOpcode 0xFF) ∧
    decode 0x4B000000000000000000000000000000000000000000000000000000000000000000000000000000 =
      .error (.undefinedOpcode 0x4B) := by
  decide

/-- Rule R71's example word. -/
theorem test_encode_eval : encode (.eval (withData 0x3E8)) =
    0x200000000000000000000000000000000000000000000000000000000000000000000000000003E8 := by decide

/-- `RD_TABLE 15` as 40 bytes (rule R62); 39 bytes are no command. -/
theorem test_decodeBytes :
    decodeBytes ([0x44, 0, 0, 0, 0, 0, 0, 0x0F] ++ List.replicate 32 0) = .ok (.rdTable (withAddr 15)) ∧
      decodeBytes (List.replicate 39 0) = .error (.wrongLength 39) := by decide

/-! ## The work function -/

/-- Vectors V-L1, V-L4, V-L5, V-L7, V-L10, V-L11, V-L12. -/
theorem test_arithmetic_wraps :
    add256 (-1) 1 = 0 ∧ mul256 (BitVec.ofNat 256 (2 ^ 255)) 2 = 0 ∧
      mul256 (BitVec.ofNat 256 (2 ^ 128)) (BitVec.ofNat 256 (2 ^ 128)) = 0 ∧
      mul256 (BitVec.ofNat 256 (2 ^ 128 + 1)) (BitVec.ofNat 256 (2 ^ 128 + 1)) = BitVec.ofNat 256 (2 ^ 129 + 1) ∧
      mod256 (-1) 65521 = 53692 ∧ mod256 (-1) (-189) = 188 ∧ mod256 1000 1 = 0 := by decide

/-- Vectors V-L15, V-L16, V-L17, V-L19: the comparison is unsigned and inclusive. -/
theorem test_xor_and_leq :
    xor256 0x00FF 0x0F0F = 0x0FF0 ∧ leq 7 7 = true ∧ leq (BitVec.ofNat 256 (2 ^ 255)) 1 = false ∧ leq (-1) (-2) = false := by
  decide

/-- Round 0 of vector V-A5. -/
theorem test_horner_round_zero :
    coefficients tcA 1000 = [248, 37, 45, 69, 85] ∧ evalPoint commitA 251 = 88 ∧
      horner 88 [248, 37, 45, 69, 85] = 5144784112 ∧ tableIndex tcA 5144784112 = 0 := by decide

/-- Vector V-A1. -/
theorem test_evaluate_nonce_zero :
    evaluate tcA (tableOf 16) commitA 0 = some
      { result := 0x51152233445566778899AABBCCDDEEFF00112233445566778899AABBCCDDCE75
        idx := [9, 5, 15, 7, 1, 3, 9, 15, 13, 5] } := by decide

/-- Vector V-A7, nonce `2^256 - 1`. -/
theorem test_evaluate_largest_nonce :
    evaluate tcA (tableOf 16) commitA (-1) = some
      { result := 0xE0D32233445566778899AABBCCDDEEFF00112233445566778899AABBCCDDADF8
        idx := [8, 1, 10, 2, 0, 14, 1, 10, 9, 1] } := by decide

/-- Vector V-C1: 256-bit moduli and `N = 15`, where the wrap of the Horner steps shows. -/
theorem test_evaluate_wraps :
    evaluate tcC (tableOf 15) (-500) (-400) = some
      { result := 0xBEFFFFFFFFFFFFFFFFFFFFFFFFFFFFFFFFFFFFFFFFFFFFFFFFFFFFFFFFFFFE8E
        idx := [1, 1, 1, 9, 9, 12, 7, 1, 1, 12] } := by decide

/-- Vector V-D1: the coefficient moduli are not the folding moduli. -/
theorem test_evaluate_two_lists :
    evaluate tcD (tableOf 16) commitA 1000 = some
      { result := 0x34342233445566778899AABBCCDDEEFF00112233445566778899AABBCCDD4AD3
        idx := [5, 2, 7, 15, 13, 3, 10, 7, 2, 2] } := by decide

/-- Vector V-A9. -/
theorem test_hit_is_inclusive :
    isHit result2 result2 = true ∧ isHit result2 (result2 - 1) = false ∧ isHit result2 (result2 + 1) = true ∧
      isHit result2 0 = false ∧ isHit result2 (BitVec.ofNat 256 (2 ^ 255)) = true := by decide

/-! ## One step of each command -/

/-- Rule R80's example. -/
theorem test_nop : answer (exec (.nop noOperand) fresh) = some 0 := by decide

/-- Vectors V-E25 and V-E26: response code `0x02`, and only `ERR[1]`. -/
theorem test_nop_field :
    field id (exec (.nop ⟨1, 0, 0⟩) fresh) = some { fresh with err := 2, responses := [BitVec.ofNat 320 (2 * 2 ^ 312)] } := by decide

/-- Program P2, command 42: the state of rule R27, answered with flags `0x00`. -/
theorem test_reset :
    field id (exec (.reset noOperand) { armedState with err := 0x7F }) = some { State.resetOf tcA with responses := [0] } := by decide

/-- Program P2, commands 39 to 41. -/
theorem test_clrErr : field State.statusWord (exec (.clrErr noOperand) { armedState with err := 0x7F }) = some 0x100000000D := by
  decide

/-- Program P1, command 2. -/
theorem test_wrTable :
    field State.table (exec (.wrTable (withData 6)) { fresh with table := [(0, 5)], loadPtr := 1 }) =
      some [(0, 5), (1, 6)] := by decide

/-- Program P2, command 28: the 17th word, `E_FULL`. -/
theorem test_wrTable_full : field State.err (exec (.wrTable (withData 6)) loaded) = some 0x10 := by decide

/-- Program P1, command 17. -/
theorem test_wrCommit :
    answer (exec (.wrCommit (withData commitA)) fresh) =
      some 0x00000000000000040000000000000000000000000000000000000000000000000000000000000000 := by decide

/-- Program P1, command 18. -/
theorem test_wrTarget :
    answer (exec (.wrTarget (withData targetA)) { fresh with commit := some commitA, cValid := true }) =
      some 0x000000000000000C0000000000000000000000000000000000000000000000000000000000000000 := by decide

/-- Program P1, command 19. -/
theorem test_arm :
    answer (exec (.arm noOperand) loaded) =
      some 0x000000000000000D0000000000000000000000000000000000000000000000000000000000000000 := by decide

/-- Program P2, command 29: table full, no commitment. -/
theorem test_arm_notReady :
    answer (exec (.arm noOperand) { loaded with commit := none, cValid := false, target := none, tValid := false }) =
      some 0x06000000000000000000000000000000000000000000000000000000000000000000000000000000 := by decide

/-- Program P1, command 20. -/
theorem test_eval_miss :
    answer (exec (.eval (withData 1000)) armedState) =
      some 0x000000000000001DA2192233445566778899AABBCCDDEEFF00112233445566778899AABBCCDDFEBA := by decide

/-- Program P1, command 22, and its trace (commands 25 and 26). -/
theorem test_eval_hit :
    answer (exec (.eval (withData 2)) armedState) =
        some 0x000000000000003D15512233445566778899AABBCCDDEEFF00112233445566778899AABBCCDDEC57 ∧
      field (fun t => (t.readIdx 0, t.readIdx 9)) (exec (.eval (withData 2)) armedState) = some (some 11, some 15) := by
  decide

/-- Program P3, command 1: flags `0x0E`, both lanes in `CHECK`. -/
theorem test_search :
    answer (exec (.search noOperand) armedState) =
        some 0x000000000000000E0000000000000000000000000000000000000000000000000000000000000000 ∧
      field State.lanes (exec (.search noOperand) armedState) = some [inCheck, inCheck] := by decide

/-- Program P4, command 2. -/
theorem test_halt :
    answer (exec (.halt noOperand) (running inCheck inCheck)) =
      some 0x000000000000004E0000000000000000000000000000000000000000000000000000000000000000 := by decide

/-- Program P4, command 3: `LANES_ACTIVE = 2`. -/
theorem test_rdStatus :
    answer (exec (.rdStatus noOperand) { running inCheck inCheck with stop := true }) =
      some 0x000000000000004E000000000000000000000000000000000000000200000000000000100000004E := by decide

/-- Program P1, commands 29 and 31, and vector V-E31. -/
theorem test_rdConst :
    answer (exec (.rdConst (withAddr 0)) fresh) = some 0xFB ∧ answer (exec (.rdConst (withAddr 15)) fresh) = some 0x10 ∧
      answer (exec (.rdConst (withAddr 0xFFFFFFFF)) fresh) =
        some 0x04000000000000000000000000000000000000000000000000000000000000000000000000000000 := by decide

/-- `RD_CONST` at the edges of its five ranges (rule R121), the last `E_ADDR`. -/
theorem test_rdConst_edges :
    [9, 10, 14, 16, 17, 18, 19].map (fun a => answer (exec (.rdConst (withAddr a)) fresh)) =
      [some 197, some 251, some 229, some 2, some 0, some 1,
        some 0x04000000000000000000000000000000000000000000000000000000000000000000000000000000] := by decide

/-- Program P1, command 33. -/
theorem test_rdCommit :
    answer (exec (.rdCommit noOperand) armedState) =
      some 0x000000000000000D00112233445566778899AABBCCDDEEFF00112233445566778899AABBCCDDEEFF := by decide

/-- Rule R123's example. -/
theorem test_rdTarget :
    answer (exec (.rdTarget noOperand) armedState) =
      some 0x000000000000000D2FFFFFFFFFFFFFFFFFFFFFFFFFFFFFFFFFFFFFFFFFFFFFFFFFFFFFFFFFFFFFFF := by decide

/-- Rule R124's examples: the last word, `E_ADDR` one beyond, `E_NODATA` right after reset. -/
theorem test_rdTable :
    answer (exec (.rdTable (withAddr 15)) armedState) =
        some 0x000000000000000D0001000000000000000000000000000000000000000000000000000000008000 ∧
      field State.err (exec (.rdTable (withAddr 16)) armedState) = some 0x08 ∧
      field State.err (exec (.rdTable (withAddr 0)) fresh) = some 0x40 := by decide

/-- The host context after `EVAL 2` (program P1, commands 22 to 26). -/
def evaluated : State :=
  { armedState with
    nonce := some 2, result := some result2, idx := [11, 15, 13, 5, 3, 9, 11, 13, 7, 15].map some, done := true, hit := true }

/-- Program P1, command 24. -/
theorem test_rdNonce :
    answer (exec (.rdNonce noOperand) evaluated) =
      some 0x000000000000003D0000000000000000000000000000000000000000000000000000000000000002 := by decide

/-- Program P1, command 23. -/
theorem test_rdResult :
    answer (exec (.rdResult noOperand) evaluated) =
      some 0x000000000000003D15512233445566778899AABBCCDDEEFF00112233445566778899AABBCCDDEC57 := by decide

/-- Program P1, command 26. -/
theorem test_rdIdx :
    answer (exec (.rdIdx (withAddr 9)) evaluated) =
      some 0x000000000000003D000000000000000000000000000000000000000000000000000000000000000F := by decide

/-- Program P2, command 37: the address check comes before the no-value check. -/
theorem test_rdIdx_addr :
    field State.err (exec (.rdIdx (withAddr 10)) armedState) = some 0x08 ∧
      field State.err (exec (.rdIdx (withAddr 9)) armedState) = some 0x40 := by decide

/-- Program P4, command 6. -/
theorem test_rdCursor :
    answer (exec (.rdCursor noOperand) { running hasExited hasExited with phase := .stopped, stop := true }) =
      some 0x000000000000004F0000000000000000000000000000000000000000000000000000000000000002 := by decide

/-- Program P3 under schedule S1, read-back command 2; program P4, command 5. -/
theorem test_rdBestNonce :
    answer (exec (.rdBestNonce noOperand) { accepted hasExited hasExited with phase := .stopped }) =
        some 0x00000000000000CF0000000000000000000000000000000000000000000000000000000000000001 ∧
      field State.err (exec (.rdBestNonce noOperand) (running hasExited inCheck)) = some 0x40 := by decide

/-- Program P3 under schedule S1, read-back command 3. -/
theorem test_rdBestResult :
    answer (exec (.rdBestResult noOperand) { accepted hasExited hasExited with phase := .stopped }) =
      some 0x00000000000000CF22332233445566778899AABBCCDDEEFF00112233445566778899AABBCCDDAABB := by decide

/-! ## Lane steps, the port and the outputs -/

/-- Program P3, schedule S1, steps 9 and 10: the last exit ends the run in the same step. -/
theorem test_laneCheck :
    field (fun t => (t.phase, t.lanes)) (laneStep 0 (accepted inCheck inCheck)) =
        some (.searching, [hasExited, inCheck]) ∧
      field (fun t => (t.phase, t.lanes, t.oStopped)) (laneStep 1 (accepted hasExited inCheck)) =
        some (.stopped, [hasExited, hasExited], true) := by decide

/-- Program P3, schedule S2, step 8: lane 1 draws nonce 2 and leaves `CURSOR = 3`. -/
theorem test_laneFetch :
    field (fun t => (t.cursor, t.lanes)) (laneStep 1 (running inCheck ⟨.fetch, none, none⟩)) =
      some (3, [inCheck, ⟨.eval, some 2, none⟩]) := by decide

/-- Rule R153: the cursor wraps. -/
theorem test_laneFetch_wraps :
    field State.cursor (laneStep 0 { running ⟨.fetch, none, none⟩ inCheck with cursor := -1 }) = some 0 := by decide

/-- Program P3, schedule S2, step 10. -/
theorem test_laneEval :
    field State.lanes (laneStep 1 (running inCheck ⟨.eval, some 2, none⟩)) =
      some [inCheck, ⟨.publish, some 2, some result2⟩] := by decide

/-- Program P3, schedule S2b, step 12 (replaced) and schedule S2, step 12 (discarded). -/
theorem test_lanePublish :
    field (fun t => (t.bestNonce, t.bestResult)) (laneStep 1 (accepted inCheck ⟨.publish, some 2, some result2⟩)) =
        some (some 2, some result2) ∧
      field (fun t => (t.bestNonce, t.bestResult))
          (laneStep 0 { accepted ⟨.publish, some 1, some result1⟩ inCheck with
            bestNonce := some 2, bestResult := some result2 }) = some (some 2, some result2) := by decide

/-- Program P3, schedule S1, step 8: first acceptance sets `STOP`. -/
theorem test_lanePublish_first :
    field (fun t => (t.bestValid, t.bestNonce, t.stop, t.lanes))
        (laneStep 1 (running inCheck ⟨.publish, some 1, some result1⟩)) =
      some (true, some 1, true, [inCheck, inCheck]) := by decide

/-- Vector V-E23, sent to a freshly reset block through the port. -/
theorem test_undefined_opcode :
    field id (step (fresh.withFetchWord 320 (2 ^ 320 - 1))) =
      some { fresh with err := 1, responses := [BitVec.ofNat 320 (2 ^ 312)] } := by decide

/-- The three level outputs (rule R176). -/
theorem test_outputs :
    (evaluated.oDone, evaluated.oHit, evaluated.oStopped) = (true, true, false) ∧
      (fresh.oDone, fresh.oHit, fresh.oStopped) = (false, false, false) := by decide

/-- The encodings of rules R13 and R19. -/
theorem test_encodings :
    [Phase.loading, .armed, .searching, .stopped].map Phase.bits = [0, 1, 2, 3] ∧
      [LaneState.idle, .check, .fetch, .eval, .publish, .exited].map LaneState.bits = [0, 1, 2, 3, 4, 5] := by decide

/-! ## Duties of the host and the written form -/

/-- Vector V-H3: the message of table word 256, with the seed of the source's scenario. -/
theorem test_bufferMessage :
    intBe (bufferMessage (bytesBe 17 0x546869732069732074686520736565642E) 256) =
      0x546869732069732074686520736565642E0000000000000000000000000000000000000000000000000000000000000100 := by decide

/-- Vector V-H5. -/
theorem test_headerMessage :
    intBe (headerMessage ⟨1, 2, 3, BitVec.ofNat 256 (2 ^ 236 - 1), 5⟩) =
      1 * 2 ^ 1024 + 2 * 2 ^ 768 + 3 * 2 ^ 512 + (2 ^ 236 - 1) * 2 ^ 256 + 5 := by decide +kernel

/-- Rule R196: decimal, and 64 hexadecimal digits with the leading zeros kept. -/
theorem test_render :
    renderNonce 1000 = ['1', '0', '0', '0'] ∧ renderResult 0x2A = List.replicate 62 0 ++ [2, 10] := by decide

/-- Rule R71's example and a `.word` line of program P2. -/
theorem test_assemble :
    assembleLine "EVAL 0x3E8 ; a nonce".toList =
        some 0x200000000000000000000000000000000000000000000000000000000000000000000000000003E8 ∧
      assembleLine "RD_TABLE 15".toList = some (encode (.rdTable (withAddr 15))) ∧ assembleLine "EVAL".toList = none := by
  decide

/-- Rule R72: `BOOT` and `VERIFY`. -/
theorem test_pseudo :
    (pseudoBoot commitA targetA).map decode =
        [.ok (.wrCommit (withData commitA)), .ok (.wrTarget (withData targetA)), .ok (.arm noOperand)] ∧
      (pseudoVerify 9).map decode = [.ok (.eval (withData 9)), .ok (.rdStatus noOperand)] := by decide

/-! ## Witnesses: states and operands that meet the hypotheses of each statement -/

/-- The smallest table: `N = 1`, two lanes. Every evaluation reads one word ten times, so its result is the commitment. -/
def tiny : Config where
  P := primesA
  Q := [251, 241, 239, 233, 229]
  N := 1
  W := 2
  cursorInit := 0
  legal := by decide

/-- The tiny block, armed with the word 7, the commitment 5 and the target 9. -/
def tinyArmed : State :=
  { State.resetOf tiny with
    phase := .armed, table := [(0, 7)], loadPtr := 1, commit := some 5, cValid := true, target := some 9, tValid := true }

/-- The tiny block in a run, nonces 0 and 1 drawn: lane 0 is to evaluate nonce 0, lane 1 to publish nonce 1. -/
def tinyRun : State :=
  { tinyArmed with
    phase := .searching, cursor := 2, lanes := [⟨.eval, some 0, none⟩, ⟨.publish, some 1, some 5⟩] }

/-- The tiny block draining: nonce 1 is accepted, lane 0 has still to draw a nonce. -/
def tinyDraining (x y : Lane) : State :=
  { tinyArmed with
    phase := .searching, cursor := 2, stop := true, bestValid := true, bestNonce := some 1, bestResult := some 5
    lanes := [x, y] }

/-- The tiny block after its run. -/
def tinyStopped : State := { tinyDraining hasExited hasExited with phase := .stopped }

theorem tiny_result (n : FixedWord) (h : n = 0 ∨ n = 1) :
    evaluate tiny [(0, 7)] 5 n = some { result := 5, idx := List.replicate 10 0 } := by
  rcases h with rfl | rfl <;> decide +kernel

theorem tiny_table (i : Nat) : (Memory.read [(0, 7)] i).isSome = decide (i = 0) := by
  by_cases h : i = 0 <;> simp [Memory.read, h]

theorem tinyArmed_inv : Inv tinyArmed := by
  constructor <;> try simp [tinyArmed, State.resetOf, Lane.reset, tiny, Memory.wf]
  exact tiny_table

theorem tinyRun_inv : Inv tinyRun := by
  constructor <;> try simp [tinyRun, tinyArmed, State.resetOf, tiny, Memory.wf, LaneState.active]
  exacts [tiny_table, ⟨5, _, rfl, tiny_result 1 (.inr rfl), rfl⟩]

theorem tinyDraining_inv {x y : Lane} (hx : x = ⟨.fetch, none, none⟩) (hy : y = inCheck ∨ y = hasExited) :
    Inv (tinyDraining x y) := by
  subst hx
  rcases hy with rfl | rfl <;> constructor <;>
    try simp [tinyDraining, tinyArmed, State.resetOf, tiny, Memory.wf, LaneState.active, inCheck, hasExited]
  all_goals first | exact tiny_table | exact ⟨5, _, rfl, tiny_result 1 (.inr rfl), rfl⟩

theorem tinyStopped_inv : Inv tinyStopped := by
  constructor <;> try simp [tinyStopped, tinyDraining, tinyArmed, State.resetOf, tiny, Memory.wf,
    LaneState.active, hasExited, State.lanesActive]
  exacts [tiny_table, ⟨5, _, rfl, tiny_result 1 (.inr rfl), rfl⟩]

theorem tiny_drawn {s : State} {n : FixedWord} (hi : s.cfg.cursorInit = 0) (hc : s.cursor = 2) (h : drawn s n) :
    n = 0 ∨ n = 1 := by
  have h2 : n.toNat < 2 := by simpa [drawn, hi, hc] using h
  have h1 : n.toNat = 0 ∨ n.toNat = 1 := by omega
  rcases h1 with h1 | h1
  · exact .inl (BitVec.eq_of_toNat_eq h1)
  · exact .inr (BitVec.eq_of_toNat_eq h1)

theorem tinyRun_nothingLost : NothingLost tinyRun := by
  intro n h
  refine .inl ?_
  rcases tiny_drawn rfl rfl h with rfl | rfl <;> simp [inHand, tinyRun]

theorem tinyRun_noRepeat : NoRepeat tinyRun := by
  refine ⟨?_, by simp [tinyRun, tinyArmed, State.resetOf], ?_⟩
  · rintro n ⟨x, hx, -, hn⟩
    simp only [tinyRun, List.mem_cons, List.not_mem_nil, or_false] at hx
    rcases hx with rfl | rfl <;> cases hn <;> simp [drawn, tinyRun, tinyArmed, State.resetOf, tiny]
  · intro l m x y n hx hy _ _ hn hm
    match l, m with
    | 0, 0 | 1, 1 => rfl
    | 0, 1 | 1, 0 =>
      simp [tinyRun] at hx hy
      subst hx hy
      cases hn
      exact absurd hm (by decide)
    | _ + 2, _ => simp [tinyRun] at hx
    | 0, _ + 2 | 1, _ + 2 => simp [tinyRun] at hy

/-- The outcome is a next state. -/
theorem next_of_field {o : Host.Outcome State Fault Refusal} (h : (field id o).isSome = true) : ∃ t, o = .next t := by
  cases o with
  | next t => exact ⟨t, rfl⟩
  | fault _ => cases h
  | refused _ => cases h

/-- `UndefinedOpcodesFail`: an undefined opcode, the first beyond the map, and the last defined one. -/
theorem witness_undefinedOpcodesFail :
    ({ fresh with agenda := [.command (layoutWord 0x4B noOperand)] } : State).agenda =
        .command (layoutWord 0x4B noOperand) :: [] ∧
      (layoutWord 0x4B noOperand).extractLsb' 312 8 ∉ definedOpcodes ∧
      (layoutWord 0x4A noOperand).extractLsb' 312 8 ∈ definedOpcodes := ⟨rfl, by decide, by decide⟩

/-- `CanonicalByteForm`: the lengths next to 40. -/
theorem witness_canonicalByteForm :
    (List.replicate 39 (0 : Byte)).length ≠ 40 ∧ (List.replicate 41 (0 : Byte)).length ≠ 40 := by decide

/-- `EncodeOfDecode` and `StepRunsDecodedCommand`. -/
theorem witness_stepRunsDecodedCommand :
    (armedState.withFetchWord 320 (encode (.eval (withData 2))).toNat).agenda =
        .command (encode (.eval (withData 2))) :: [] ∧
      decode (encode (.eval (withData 2))) = .ok (.eval (withData 2)) := by decide

/-- `NothingEnabledChangesNothing`: each of its five cases. -/
theorem witness_nothingEnabledChangesNothing :
    fresh.agenda = [] ∧ armedState.phase ≠ .searching ∧ (running inCheck hasExited).lanes[2]? = none ∧
      (running ⟨.idle, none, none⟩ inCheck).lanes[0]?.map Lane.state = some .idle ∧
      (running inCheck hasExited).lanes[1]?.map Lane.state = some .exited := by decide

/-- `IllegalConfigurationsRefused`: the bounds themselves are legal, one beyond is not. -/
theorem witness_illegalConfigurationsRefused :
    (Config.build (List.replicate 10 2) (List.replicate 5 2) 1 1 0).isSome = true ∧
      (Config.build primesC (primesC.take 5) (2 ^ 32) (2 ^ 32 - 1) 0).isSome = true ∧
      (Config.build primesA (primesA.take 5) 0 1 0).isSome = false ∧
      (Config.build primesA (primesA.take 5) (2 ^ 32 + 1) 1 0).isSome = false ∧
      (Config.build primesA (primesA.take 5) 1 0 0).isSome = false ∧
      (Config.build primesA (primesA.take 5) 1 (2 ^ 32) 0).isSome = false ∧
      (Config.build (List.replicate 10 1) (List.replicate 5 2) 1 1 0).isSome = false := by decide

/-- `ResetValues`: the last IDX register and the last lane. -/
theorem witness_resetValues : 9 < 10 ∧ 1 < tcA.W := by decide

/-- `NopAnswersOnly`, `ResetRestoresResetState`, `ClrErrClearsAllStickyBits`, `RdStatusAndRdCursorAnswer`: well-formed, and not. -/
theorem witness_commandsWithoutOperand :
    (Instr.nop noOperand).wellFormed = true ∧ (Instr.nop ⟨1, 0, 0⟩).wellFormed = false ∧
      (Instr.reset noOperand).wellFormed = true ∧ (Instr.reset ⟨0, 1, 0⟩).wellFormed = false ∧
      (Instr.clrErr noOperand).wellFormed = true ∧ (Instr.clrErr ⟨0, 0, 1⟩).wellFormed = false ∧
      (Instr.rdStatus noOperand).wellFormed = true ∧ (Instr.rdStatus ⟨0, 1, 0⟩).wellFormed = false ∧
      (Instr.rdCursor noOperand).wellFormed = true ∧ (Instr.rdCursor ⟨0, 0, 1⟩).wellFormed = false ∧
      ({ armedState with agenda := [.reset] } : State).agenda = .reset :: [] := by decide

/-- `WrTableAppendsWord`: the first and the last word, and each error. -/
theorem witness_wrTableAppendsWord :
    (Instr.wrTable (withData 6)).wellFormed = true ∧ fresh.phase = .loading ∧ fresh.loadPtr ≠ fresh.cfg.N ∧
      ({ loaded with table := tableOf 15, loadPtr := 15 } : State).loadPtr ≠ tcA.N ∧
      (Instr.wrTable ⟨0, 3, 6⟩).wellFormed = false ∧ armedState.phase ≠ .loading ∧ loaded.phase = .loading ∧
      loaded.loadPtr = loaded.cfg.N := by decide

/-- `WrCommitAndWrTargetWriteTheirRegister`. -/
theorem witness_wrCommitAndWrTarget :
    (Instr.wrCommit (withData 6)).wellFormed = true ∧ (Instr.wrTarget (withData 6)).wellFormed = true ∧
      fresh.phase = .loading ∧ (Instr.wrCommit ⟨0, 1, 6⟩).wellFormed = false ∧
      (Instr.wrTarget ⟨0, 1, 6⟩).wellFormed = false ∧ armedState.phase ≠ .loading := by decide

/-- `ArmFreezesACompleteLoad`: the table just full, and one word, the commitment or the target missing. -/
theorem witness_armFreezesACompleteLoad :
    (Instr.arm noOperand).wellFormed = true ∧ loaded.phase = .loading ∧ loaded.cfg.N ≤ loaded.loadPtr ∧
      loaded.cValid = true ∧ loaded.tValid = true ∧ (Instr.arm ⟨0, 0, 1⟩).wellFormed = false ∧
      armedState.phase ≠ .loading ∧ ({ loaded with loadPtr := 15 } : State).loadPtr < tcA.N ∧
      ({ loaded with commit := none, cValid := false } : State).cValid = false ∧
      ({ loaded with target := none, tValid := false } : State).tValid = false := by decide

/-- `EvalWritesHostContext`: in `ARMED`, in `STOPPED`, and each error. -/
theorem witness_evalWritesHostContext :
    (Instr.eval (withData 1)).wellFormed = true ∧ tinyArmed.phase = .armed ∧ tinyStopped.phase = .stopped ∧
      tinyArmed.commit = some 5 ∧ tinyArmed.target = some 9 ∧
      evaluate tinyArmed.cfg tinyArmed.table 5 1 = some { result := 5, idx := List.replicate 10 0 } ∧
      evaluate tinyStopped.cfg tinyStopped.table 5 1 = some { result := 5, idx := List.replicate 10 0 } ∧
      (Instr.eval ⟨1, 0, 1⟩).wellFormed = false ∧ fresh.phase = .loading ∧ tinyRun.phase = .searching :=
  ⟨by decide, rfl, rfl, rfl, rfl, tiny_result 1 (.inr rfl), tiny_result 1 (.inr rfl), by decide, rfl, rfl⟩

/-- `SearchStartsEveryLane` and `HaltSetsStopOnly`. -/
theorem witness_searchAndHalt :
    (Instr.search noOperand).wellFormed = true ∧ armedState.phase = .armed ∧ (Instr.search ⟨1, 0, 0⟩).wellFormed = false ∧
      loaded.phase ≠ .armed ∧ tinyStopped.phase ≠ .armed ∧ (Instr.halt noOperand).wellFormed = true ∧
      tinyRun.phase = .searching ∧ (Instr.halt ⟨1, 0, 0⟩).wellFormed = false ∧ tinyStopped.phase ≠ .searching := by decide

/-- `RdConstReadsTheConstant`: both ends of each range. -/
theorem witness_rdConst :
    (∀ a ∈ [0, 9, 10, 14, 15, 16, 17, 18, 19], (Instr.rdConst (withAddr (BitVec.ofNat 32 a))).wellFormed = true) ∧
      (Instr.rdConst ⟨0, 0, 1⟩).wellFormed = false ∧ fresh.cfg.P[0]? = some 251 ∧ fresh.cfg.P[9]? = some 197 ∧
      fresh.cfg.Q[10 - 10]? = some 251 ∧ fresh.cfg.Q[14 - 10]? = some 229 ∧ 19 ≤ (withAddr 19).addr.toNat := by decide

/-- `RdCommitAndRdTargetAnswer`: the register valid, and not. -/
theorem witness_rdCommitAndRdTarget :
    (Instr.rdCommit noOperand).wellFormed = true ∧ armedState.cValid = true ∧ armedState.commit = some commitA ∧
      fresh.cValid = false ∧ (Instr.rdCommit ⟨0, 1, 0⟩).wellFormed = false ∧ (Instr.rdTarget noOperand).wellFormed = true ∧
      armedState.tValid = true ∧ armedState.target = some targetA ∧ fresh.tValid = false ∧
      (Instr.rdTarget ⟨0, 1, 0⟩).wellFormed = false := by decide

/-- `RdTableReadsOneWord`: the last word held, the first not held, the last address, the first beyond. -/
theorem witness_rdTable :
    (∀ a ∈ [14, 15, 16], (Instr.rdTable (withAddr (BitVec.ofNat 32 a))).wellFormed = true) ∧
      (Instr.rdTable ⟨0, 0, 1⟩).wellFormed = false ∧ (withAddr 15).addr.toNat < armedState.cfg.N ∧
      (withAddr 15).addr.toNat < armedState.loadPtr ∧
      Memory.read armedState.table (withAddr 15).addr.toNat = some (BitVec.ofNat 256 (2 ^ 15 + 2 ^ 240)) ∧
      armedState.cfg.N ≤ (withAddr 16).addr.toNat ∧
      ({ loaded with table := tableOf 15, loadPtr := 15 } : State).loadPtr ≤ (withAddr 15).addr.toNat := by decide

/-- `RdNonceAndRdResultAnswer`. -/
theorem witness_rdNonceAndRdResult :
    (Instr.rdNonce noOperand).wellFormed = true ∧ evaluated.done = true ∧ evaluated.nonce = some 2 ∧
      evaluated.result = some result2 ∧ armedState.done = false ∧ (Instr.rdNonce ⟨1, 0, 0⟩).wellFormed = false ∧
      (Instr.rdResult noOperand).wellFormed = true ∧ (Instr.rdResult ⟨1, 0, 0⟩).wellFormed = false := by decide

/-- `RdIdxReadsTheTrace`: the last register, the first address beyond, no evaluation yet. -/
theorem witness_rdIdx :
    (Instr.rdIdx (withAddr 9)).wellFormed = true ∧ (withAddr 9).addr.toNat < 10 ∧ evaluated.done = true ∧
      evaluated.idx[9]? = some (some 15) ∧ (Instr.rdIdx ⟨0, 0, 1⟩).wellFormed = false ∧
      (Instr.rdIdx (withAddr 10)).wellFormed = true ∧ 10 ≤ (withAddr 10).addr.toNat ∧ armedState.done = false := by
  decide

/-- `RdBestAnswersTheProof`. -/
theorem witness_rdBest :
    (Instr.rdBestNonce noOperand).wellFormed = true ∧ tinyStopped.bestValid = true ∧ tinyStopped.bestNonce = some 1 ∧
      tinyStopped.bestResult = some 5 ∧ tinyArmed.bestValid = false ∧ (Instr.rdBestNonce ⟨1, 0, 0⟩).wellFormed = false ∧
      (Instr.rdBestResult noOperand).wellFormed = true ∧ (Instr.rdBestResult ⟨1, 0, 0⟩).wellFormed = false := by decide

/-- `LaneCheckTestsStop`: `STOP = 0`; another lane still in the loop; every other lane exited. -/
theorem witness_laneCheck :
    ({ running inCheck inCheck with agenda := [.lane 1] } : State).agenda = .lane 1 :: [] ∧
      (running inCheck inCheck).phase = .searching ∧ (running inCheck inCheck).lanes[1]? = some inCheck ∧
      inCheck.state = .check ∧ (running inCheck inCheck).stop = false ∧ (accepted inCheck inCheck).stop = true ∧
      (∃ m y, m ≠ 1 ∧ (accepted inCheck inCheck).lanes[m]? = some y ∧ y.state ≠ .exited) ∧
      (∀ m y, m ≠ 1 → (accepted hasExited inCheck).lanes[m]? = some y → y.state = .exited) := by
  refine ⟨rfl, rfl, rfl, rfl, rfl, rfl, ⟨0, inCheck, by decide, rfl, by decide⟩, fun m y hm hy => ?_⟩
  match m with
  | 0 => cases hy; rfl
  | 1 => exact absurd rfl hm
  | _ + 2 => cases hy

/-- `LaneFetchDrawsTheCursor`, also with the cursor about to wrap. -/
theorem witness_laneFetch :
    (running ⟨.fetch, none, none⟩ inCheck).phase = .searching ∧
      (running ⟨.fetch, none, none⟩ inCheck).lanes[0]? = some ⟨.fetch, none, none⟩ ∧
      ({ running ⟨.fetch, none, none⟩ inCheck with cursor := -1 } : State).cursor + 1 = 0 ∧
      ({ running ⟨.fetch, none, none⟩ inCheck with agenda := [.lane 0] } : State).agenda = .lane 0 :: [] := by decide

/-- `LaneEvalComputesTheResult`. -/
theorem witness_laneEval :
    ({ tinyRun with agenda := [.lane 0] } : State).agenda = .lane 0 :: [] ∧ tinyRun.phase = .searching ∧
      tinyRun.lanes[0]? = some ⟨.eval, some 0, none⟩ ∧ tinyRun.commit = some 5 ∧
      evaluate tinyRun.cfg tinyRun.table 5 0 = some { result := 5, idx := List.replicate 10 0 } :=
  ⟨rfl, rfl, rfl, rfl, tiny_result 0 (.inl rfl)⟩

/-- `LanePublishKeepsTheSmaller`: one more than the target; the target itself; smaller than, and equal to, the accepted result. -/
theorem witness_lanePublish :
    (running inCheck ⟨.publish, some 4, some (targetA + 1)⟩).lanes[1]? = some ⟨.publish, some 4, some (targetA + 1)⟩ ∧
      (running inCheck inCheck).target = some targetA ∧ targetA.toNat < (targetA + 1).toNat ∧
      targetA.toNat ≤ targetA.toNat ∧ (running inCheck inCheck).bestValid = false ∧
      (accepted inCheck ⟨.publish, some 2, some result2⟩).bestValid = true ∧
      (accepted inCheck inCheck).bestResult = some result1 ∧ result2.toNat ≤ targetA.toNat ∧
      result2.toNat < result1.toNat ∧ result1.toNat ≤ targetA.toNat ∧ result1.toNat ≤ result1.toNat := by decide

/-- `EvaluateIsTheFoldedWorkFunction`: a full table of one word. -/
theorem witness_evaluate :
    tiny.Q = [251, 241, 239, 233, 229] ∧ ∀ i < tiny.N, Memory.read [(0, (7 : FixedWord))] i = some 7 := by
  refine ⟨rfl, fun i hi => ?_⟩
  have : i = 0 := by simpa [tiny] using hi
  subst this
  rfl

/-- `CoefficientsNeverWrap`: the last coefficient, with the largest nonce. -/
theorem witness_coefficients : (coefficients tcC (-1))[4]? = some (617 : FixedWord) ∧ tcC.Q[4]? = some (-617 : FixedWord) := by
  decide

/-- `PowerOfTwoCapacityIgnoresTheWrap`: `N = 1` and `N = 16`. -/
theorem witness_powerOfTwoCapacity : tiny.N = 2 ^ 0 ∧ tcA.N = 2 ^ 4 := by decide

/-- `SmallModuliNeverWrap`: the bound 251 of TC-A, and the largest bound. -/
theorem witness_smallModuli :
    (∀ m ∈ tcA.P ++ tcA.Q, m.toNat ≤ 251) ∧ 251 ≤ 2 ^ 51 ∧ (251 : FixedWord) ∈ tcA.P ∧
      coefficients tcA 1000 = [248, 37, 45, 69, 85] ∧ (∀ m ∈ tcA.P ++ tcA.Q, m.toNat ≤ 2 ^ 51) := by
  have h : (tcA.P ++ tcA.Q).all (fun m => decide (m.toNat ≤ 251)) = true := by decide
  have h' := fun m hm => of_decide_eq_true (List.all_eq_true.1 h m hm)
  exact ⟨h', by decide, by decide, by decide, fun m hm => (h' m hm).trans (by decide)⟩

/-- `FoldOrderIsIrrelevant`. -/
theorem witness_foldOrder : [3, 1, 2].Perm [2, 3, 1] := by decide

/-- `ZeroCommitmentGivesZero` (vector V-A8). -/
theorem witness_zeroCommitment :
    evaluate tcA (tableOf 16) 0 1000 = some { result := 0, idx := List.replicate 10 8 } := by decide

/-- `ErrorsAreThoseOfTheTable`: a command word for each code, and one that is carried out from a state that meets the
invariants. -/
theorem witness_errors :
    wordError (layoutWord 0x7F ⟨1, 0, 0⟩) fresh = some 1 ∧ wordError (encode (.nop ⟨0, 0, 1⟩)) fresh = some 2 ∧
      wordError (encode (.eval (withData 0))) fresh = some 3 ∧ wordError (encode (.rdTable (withAddr 16))) fresh = some 4 ∧
      wordError (encode (.wrTable (withData 0))) loaded = some 5 ∧ wordError (encode (.arm noOperand)) fresh = some 6 ∧
      wordError (encode (.rdTable (withAddr 15))) fresh = some 7 ∧
      wordError (encode (.search noOperand)) tinyArmed = none ∧ Inv tinyArmed :=
  ⟨by decide, by decide, by decide, by decide, by decide, by decide,
    by decide, by decide, tinyArmed_inv⟩

/-- `OneResponsePerCommand`: a command and a lane step. -/
theorem witness_oneResponse :
    (∃ t, step { fresh with agenda := [.command (encode (.nop noOperand))] } = .next t) ∧
      (∃ t, step { tinyRun with agenda := [.lane 0] } = .next t) ∧
      (∀ w, Event.lane 0 ≠ .command w) :=
  ⟨next_of_field (by decide), next_of_field (by decide), fun _ h => by cases h⟩

/-- `ReadsHaveNoSideEffect`: a read that is answered and one that fails. -/
theorem witness_reads :
    isRead (.rdCursor noOperand) = true ∧ (∃ t, exec (.rdCursor noOperand) fresh = .next t) ∧
      isRead (.rdCommit noOperand) = true ∧ ∃ t, exec (.rdCommit noOperand) fresh = .next t :=
  ⟨rfl, next_of_field (by decide), rfl, next_of_field (by decide)⟩

/-- Whatever is still to happen, the invariants of the tiny run hold. -/
theorem tinyRun_invariants (es : List Event) :
    Inv { tinyRun with agenda := es } ∧ NothingLost { tinyRun with agenda := es } ∧ NoRepeat { tinyRun with agenda := es } := by
  obtain ⟨h1, h2, h3⟩ := tinyRun_noRepeat
  refine ⟨?_, tinyRun_nothingLost, ⟨h1, h2, h3⟩⟩
  cases tinyRun_inv
  constructor <;> assumption

/-- `StepKeepsInvariants`, `NoStepEverStops`, `NoDrawnNonceIsLost` and `NoNonceIsHeldTwice`: a run with two nonces in hand, with each
kind of item next: an `L_EVAL`, an `L_PUBLISH`, a command, a reset. -/
theorem witness_invariants :
    (∀ es ∈ [[Event.lane 0], [.lane 1], [.command (encode (.halt noOperand))], [.reset]],
      Inv { tinyRun with agenda := es } ∧ NothingLost { tinyRun with agenda := es } ∧ NoRepeat { tinyRun with agenda := es }) ∧
    tinyRun.cursor + 1 ≠ tinyRun.cfg.cursorInit ∧
    (∃ t, step { tinyRun with agenda := [.lane 0] } = .next t) ∧ (∃ t, step { tinyRun with agenda := [.lane 1] } = .next t) ∧
    (∃ t, step { tinyRun with agenda := [.command (encode (.halt noOperand))] } = .next t) ∧
    ∃ t, step { tinyRun with agenda := [.reset] } = .next t :=
  ⟨fun es _ => tinyRun_invariants es, by decide, next_of_field (by decide), next_of_field (by decide), next_of_field (by decide),
    next_of_field (by decide)⟩

/-- `EnabledUntilItSteps`: lane 0's `L_EVAL` is enabled, and lane 1 or a command comes next. -/
theorem witness_enabledUntilItSteps :
    tinyRun.laneEnabled 0 = true ∧ Event.lane 1 ≠ .lane 0 ∧ resets (.lane 1) = false ∧
      (∃ t, step { tinyRun with agenda := [.lane 1] } = .next t) ∧
      Event.command (encode (.halt noOperand)) ≠ .lane 0 ∧ resets (.command (encode (.halt noOperand))) = false ∧
      ∃ t, step { tinyRun with agenda := [.command (encode (.halt noOperand))] } = .next t :=
  ⟨by decide, by decide, rfl, next_of_field (by decide), by decide, by decide, next_of_field (by decide)⟩

/-- `PhaseChangesOnlyByRule`: the four changes. -/
theorem witness_phaseChanges :
    field State.phase (step { tinyStopped with agenda := [.reset] }) = some .loading ∧
      field State.phase (step { loaded with agenda := [.command (encode (.arm noOperand))] }) = some .armed ∧
      field State.phase (step { armedState with agenda := [.command (encode (.search noOperand))] }) = some .searching ∧
      field State.phase (step { tinyDraining hasExited inCheck with agenda := [.lane 1] }) = some .stopped := by
  decide

/-- `ConfigurationIsFrozen`: a load command after `ARM`. -/
theorem witness_configurationIsFrozen :
    armedState.phase ≠ .loading ∧ resets (.command (encode (.wrCommit (withData 1)))) = false ∧
      ∃ t, step { armedState with agenda := [.command (encode (.wrCommit (withData 1)))] } = .next t :=
  ⟨by decide, by decide, next_of_field (by decide)⟩

/-- `StopAndBestOnlyImprove`: a publish that replaces the accepted proof. -/
theorem witness_stopAndBest :
    (accepted inCheck ⟨.publish, some 2, some result2⟩).phase = .searching ∧
      (accepted inCheck ⟨.publish, some 2, some result2⟩).stop = true ∧
      (accepted inCheck ⟨.publish, some 2, some result2⟩).bestValid = true ∧ resets (.lane 1) = false ∧
      ∃ t, step { accepted inCheck ⟨.publish, some 2, some result2⟩ with agenda := [.lane 1] } = .next t :=
  ⟨rfl, rfl, rfl, rfl, next_of_field (by decide)⟩

/-- `LaneStepsTouchOnlyTheRun`. -/
theorem witness_laneSteps :
    ({ tinyRun with agenda := [.lane 1] } : State).agenda = .lane 1 :: [] ∧
      ∃ t, step { tinyRun with agenda := [.lane 1] } = .next t := ⟨rfl, next_of_field (by decide)⟩

/-- `LaneEvalCommutes`: with another lane's publish and with a command. -/
theorem witness_laneEvalCommutes :
    Inv tinyRun ∧ tinyRun.phase = .searching ∧ tinyRun.lanes[0]? = some ⟨.eval, some 0, none⟩ ∧
      Event.lane 1 ≠ .lane 0 ∧ Event.command 0 ≠ .lane 0 := ⟨tinyRun_inv, rfl, rfl, by decide, by decide⟩

/-- `NoncesAreIssuedInOrder`: two lanes of TC-A each draw a nonce. -/
theorem witness_noncesAreIssued :
    (running ⟨.fetch, none, none⟩ ⟨.fetch, none, none⟩).phase = .searching ∧
      (∀ e ∈ [Event.lane 1, .lane 0], resets e = false) ∧
      issued 2 { running ⟨.fetch, none, none⟩ ⟨.fetch, none, none⟩ with agenda := [.lane 1, .lane 0] } = [2, 3] ∧
      ∃ t, Sys2Proof.core.run 2
        ({ running ⟨.fetch, none, none⟩ ⟨.fetch, none, none⟩ with agenda := [.lane 1, .lane 0] } : State) = .next t :=
  ⟨rfl, by decide, by decide, next_of_field (by decide)⟩

/-- From reset: the load of the tiny block, `ARM`, `SEARCH`, lane 1 draws nonce 0 and finds a proof, lane 0 exits. -/
def tinySession : State :=
  { State.resetOf tiny with
    agenda := (bootSequence [7] 5 9).map .command ++ [.command (encode (.search noOperand))] ++
      [.lane 1, .lane 1, .lane 1, .lane 1, .lane 1, .lane 0] }

/-- `FinalProofIsTheMinimum`: the session ends in `STOPPED` with nonce 0 drawn, its result a hit, and a proof accepted. -/
theorem witness_finalProof :
    field (fun s => (s.phase, s.target, s.cursor)) (Sys2Proof.core.run 11 tinySession) = some (.stopped, some 9, 1) ∧
      field (fun s => (s.bestValid, s.bestNonce, s.bestResult)) (Sys2Proof.core.run 11 tinySession) =
        some (true, some 0, some 5) ∧
      11 < 2 ^ 256 ∧ (0 - tiny.cursorInit).toNat < (1 - tiny.cursorInit).toNat ∧ (5 : FixedWord).toNat ≤ (9 : FixedWord).toNat ∧
      evaluate tiny [(0, 7)] 5 0 = some { result := 5, idx := List.replicate 10 0 } :=
  ⟨by decide, by decide, by decide, by decide, by decide, tiny_result 0 (.inl rfl)⟩

/-- `RunDrainsAfterStop`: the step of an active lane, of a lane that has exited, and a command. -/
theorem witness_runDrains :
    Inv (tinyDraining ⟨.fetch, none, none⟩ inCheck) ∧ Inv (tinyDraining ⟨.fetch, none, none⟩ hasExited) ∧
      (tinyDraining ⟨.fetch, none, none⟩ inCheck).phase = .searching ∧
      (tinyDraining ⟨.fetch, none, none⟩ inCheck).stop = true ∧ resets (.lane 0) = false ∧
      (∃ t, step { tinyDraining ⟨.fetch, none, none⟩ inCheck with agenda := [.lane 0] } = .next t) ∧
      (∃ t, step { tinyDraining ⟨.fetch, none, none⟩ hasExited with agenda := [.lane 1] } = .next t) ∧
      resets (.command (encode (.halt noOperand))) = false ∧
      ∃ t, step { tinyDraining ⟨.fetch, none, none⟩ inCheck with agenda := [.command (encode (.halt noOperand))] } =
        .next t :=
  ⟨tinyDraining_inv rfl (.inl rfl), tinyDraining_inv rfl (.inr rfl), rfl, rfl, rfl, next_of_field (by decide),
    next_of_field (by decide), by decide, next_of_field (by decide)⟩

/-- `DrawsAfterStopAreBounded`: one lane in `FETCH`, one nonce drawn before the run ends. -/
theorem witness_drawsAfterStop :
    (tinyDraining ⟨.fetch, none, none⟩ inCheck).phase = .searching ∧ (tinyDraining ⟨.fetch, none, none⟩ inCheck).stop = true ∧
      (∀ e ∈ List.replicate 4 (Event.lane 0) ++ [.lane 1], resets e = false) ∧
      field (fun t => (t.phase, t.cursor)) (Sys2Proof.core.run 5
        ({ tinyDraining ⟨.fetch, none, none⟩ inCheck with
          agenda := List.replicate 4 (Event.lane 0) ++ [.lane 1] } : State)) = some (.stopped, 3) :=
  ⟨rfl, rfl, by decide, by decide⟩

/-- `FairScheduleStops`: a weakly fair schedule with no reset, and a list that chooses each lane as often as it has steps left, four
times the lane in `FETCH` and never the one that has exited, with a command among them. -/
theorem witness_fairSchedule :
    Inv (tinyDraining ⟨.fetch, none, none⟩ hasExited) ∧ (tinyDraining ⟨.fetch, none, none⟩ hasExited).phase = .searching ∧
      (tinyDraining ⟨.fetch, none, none⟩ hasExited).stop = true ∧
      (∃ sched, WeaklyFair (tinyDraining ⟨.fetch, none, none⟩ hasExited) sched ∧
        ∀ k e, sched k = some e → resets e = false) ∧
      (∀ e ∈ Event.command (encode (.halt noOperand)) :: List.replicate 4 (Event.lane 0), resets e = false) ∧
      ∀ l x, (tinyDraining ⟨.fetch, none, none⟩ hasExited).lanes[l]? = some x → stepsLeft x.state ≤
        (Event.command (encode (.halt noOperand)) :: List.replicate 4 (Event.lane 0)).countP (fun e => decide (e = .lane l)) := by
  obtain ⟨sched, h, hl⟩ := exists_recurring
  refine ⟨tinyDraining_inv rfl (.inr rfl), rfl, rfl, ⟨sched, weaklyFair_of_recurring h _, fun k e he => ?_⟩, by decide, ?_⟩
  · obtain ⟨l, rfl⟩ := hl k e he; rfl
  · intro l x hx
    match l with
    | 0 => cases hx; decide
    | 1 => cases hx; decide
    | _ + 2 => cases hx

/-- Enabled lane steps (rule R146): of the lanes of a run; none once it has ended. -/
theorem test_laneEnabled :
    ([0, 1, 2].map tinyRun.laneEnabled, [0, 1].map (running hasExited inCheck).laneEnabled, tinyStopped.laneEnabled 0) =
      ([true, true, false], [false, true], false) := by decide

/-- A schedule that leaves an enabled lane waiting for ever is not weakly fair (rule R147). -/
theorem test_weaklyFair_refuses_starvation : ¬ WeaklyFair tinyRun (fun _ => none) := by
  intro h
  have hs : ∀ k, stateAt tinyRun (fun _ => none) k = some tinyRun := fun k => by
    induction k with
    | zero => rfl
    | succ k ih => exact stateAt_succ ih rfl
  obtain ⟨j, -, hj | hj⟩ := h 0 0
  · cases hj
  · exact absurd (hj _ (hs j)) (by decide)

/-- `EvalVerifiesTheProof`. -/
theorem witness_evalVerifies :
    Inv tinyStopped ∧ tinyStopped.phase = .stopped ∧ tinyStopped.bestNonce = some 1 ∧ tinyStopped.bestResult = some 5 :=
  ⟨tinyStopped_inv, rfl, rfl, rfl⟩

/-- `BootSequenceArms`. -/
theorem witness_bootSequence : [(7 : FixedWord)].length = tiny.N := rfl

/-- `HashedMessagesAreExact`: the last of the table's words, the last byte of an index, and of each header field its last byte. -/
theorem witness_hashedMessages :
    65535 < 65536 ∧ 31 < 32 ∧ (bufferMessage [0x2A] 0x102)[1 + 31]? = some 2 ∧
      ∀ j ∈ [0, 1, 2, 3, 4], ([1, 2, 3, 4, 5] : List FixedWord)[j]?.map (BitVec.setWidth 8) =
        (headerMessage ⟨1, 2, 3, 4, 5⟩)[32 * j + 31]? := by decide

end Sys2Proof.Tests
end

section
/-!
PROOFS. Scope (spec/00_scope.md): which parameters make a configuration (rule R6, V9), and the constants of the reference
configuration (conflict C1, decision D17).
-/

namespace Sys2Proof

open Sys2Proof.Machine

/-! ## Building a configuration -/

/-- The checks of `Config.Legal`, each modulus on its own. -/
theorem Config.legal_iff {P Q : List FixedWord} {N W : Nat} :
    Config.Legal P Q N W ↔
      P.length = 10 ∧ Q.length = 5 ∧ (∀ p ∈ P, 2 ≤ p.toNat) ∧ (∀ q ∈ Q, 2 ≤ q.toNat) ∧ 1 ≤ N ∧ N ≤ 2 ^ 32 ∧
        1 ≤ W ∧ W ≤ 2 ^ 32 - 1 := by
  simp only [Config.Legal, List.all_eq_true, decide_eq_true_eq, and_assoc]

theorem Config.build_of_legal {P Q : List FixedWord} {N W : Nat} (c : FixedWord) (h : Config.Legal P Q N W) :
    Config.build P Q N W c = some { P, Q, N, W, cursorInit := c, legal := h } :=
  dif_pos h

theorem Config.build_of_not_legal {P Q : List FixedWord} {N W : Nat} (c : FixedWord) (h : ¬ Config.Legal P Q N W) :
    Config.build P Q N W c = none :=
  dif_neg h

/-- Rule R6's last sentence: a configuration that breaks a constraint is refused, and no other. -/
theorem Config.build_isSome_iff_legal {P Q : List FixedWord} {N W : Nat} {c : FixedWord} :
    (Config.build P Q N W c).isSome = true ↔ Config.Legal P Q N W := by
  by_cases h : Config.Legal P Q N W
  · exact iff_of_true (by rw [Config.build_of_legal c h, Option.isSome_some]) h
  · exact iff_of_false (by simp [Config.build_of_not_legal c h]) h

/-- `Config.build` loses nothing: it reaches every configuration, from that configuration's own parameters. -/
theorem Config.build_self (c : Config) : Config.build c.P c.Q c.N c.W c.cursorInit = some c :=
  Config.build_of_legal c.cursorInit c.legal

/-- Settles O9: legality is the one condition of `Config.build`, and every configuration carries it. -/
theorem illegalConfigurationsRefused : Obligations.IllegalConfigurationsRefused :=
  ⟨fun _ _ _ _ _ => Config.build_isSome_iff_legal.trans Config.legal_iff, Config.build_self⟩

/-! ## The reference configuration -/

@[simp] theorem Config.reference_N : Config.reference.N = 65536 := rfl
@[simp] theorem Config.reference_cursorInit : Config.reference.cursorInit = 0 := rfl

/-- Conflict C1: the coefficient moduli are the first five folding moduli. -/
theorem Config.reference_Q : Config.reference.Q = Config.reference.P.take 5 := rfl

@[simp] theorem Machine.State.reset_cfg : State.reset.cfg = Config.reference := State.resetOf_cfg _

/-- Settles O10: the constants right after reset are those of the reference configuration. -/
theorem referenceConfiguration : Obligations.ReferenceConfiguration := by
  unfold Obligations.ReferenceConfiguration
  rw [State.reset_cfg]
  exact ⟨rfl, Config.reference_N, Config.reference_cursorInit, Config.reference_Q⟩

end Sys2Proof
end

section
/-!
PROOFS. What one item of an execution can do (spec/20_memory.md rule R49), with the exact command word that did it: the
encoding facts and the inversion of `step` from which the claims about the state (spec/10_state.md) are derived.
-/

namespace Sys2Proof.Machine

open Sys2Proof.Safety

/-! ## Command words -/

/-- No bit of a command word lies outside its opcode and its three fields (rule R60). -/
theorem layoutWord_fields (w : CommandWord) : layoutWord (opcodeField w) (fieldsOf w) = w := by
  have join {start mid len n : Nat} (h : mid = start + len) :=
    BitVec.extractLsb'_append_extractLsb'_eq_extractLsb' (x := w) (len₂ := n) h
  simp [layoutWord, opcodeField, fieldsOf, join (start := 288) (len := 24) rfl, join (start := 256) (len := 32) rfl,
    join (start := 0) (len := 256) rfl]

/-- Each row of the opcode map builds a command with that row's opcode and the given fields (rule R63). -/
theorem opcodeMap_row : ∀ p ∈ opcodeMap, ∀ f, (p.2 f).opcode = p.1 ∧ (p.2 f).fields = f := by
  simp [opcodeMap, Instr.opcode, Instr.fields]

/-- A word that decodes is the encoded word of what it decodes to (rules R60, R63). -/
theorem encode_of_decode_ok {w : CommandWord} {i : Instr} (h : decode w = .ok i) : encode i = w := by
  unfold decode at h
  split at h
  · rename_i command hl
    obtain ⟨l₁, l₂, hmap, -⟩ := List.lookup_eq_some_iff.1 hl
    obtain ⟨hop, hf⟩ := opcodeMap_row (opcodeField w, command) (by simp [hmap]) (fieldsOf w)
    cases h
    rw [encode, hop, hf, layoutWord_fields]
  · cases h

/-- A well-formed command without operands has the fields zero (rule R66). -/
theorem fields_eq_zero_of_wellFormed {i : Instr} (hw : i.wellFormed = true) (ha : i.usesAddr = false)
    (hd : i.usesData = false) : i.fields = ⟨0, 0, 0⟩ := by
  simp only [Instr.wellFormed, ha, hd, Bool.false_or, Bool.and_eq_true, beq_iff_eq] at hw
  obtain ⟨⟨hr, ha⟩, hd⟩ := hw
  cases hf : i.fields
  simp_all

/-- A well-formed `RESET` is a reset (rule R190). -/
theorem resets_encode_reset {f : Fields} (h : (Instr.reset f).wellFormed = true) :
    resets (.command (encode (.reset f))) = true := by
  have hf : f = ⟨0, 0, 0⟩ := fields_eq_zero_of_wellFormed h rfl rfl
  simp [resets, hf]

/-- A command that is not well formed fails with `E_FIELD`, before every other check of `exec` (rules R66, R173). -/
theorem exec_of_not_wellFormed {i : Instr} (h : i.wellFormed = false) (s : State) : exec i s = raise s .field := by
  cases i <;> refine checked_field ?_ .. <;>
    simpa [Instr.wellFormed, Instr.fields, Instr.usesAddr, Instr.usesData, FieldUse.ok] using h

/-! ## One item -/

/-- Everything one item of an execution can do when it has a next state (rules R49, R65, R66, R146, R190). -/
inductive Handled (s : State) : Event → State → Prop where
  /-- A command word fails with an error code. -/
  | fails (w : CommandWord) (e : ErrorCode) : Handled s (.command w) (s.fail e)
  /-- The word of a well-formed command, which is carried out and answered. -/
  | carried (i : Instr) (s' : State) (d : FixedWord) (hw : i.wellFormed = true) (h : Carried s i s' d) :
      Handled s (.command (encode i)) (s'.respondOk d)
  /-- A lane is chosen. -/
  | lane (l : Nat) (t : State) (h : LaneEffect l s t) : Handled s (.lane l) t
  /-- The reset input. -/
  | reset : Handled s .reset s.resetBlock

theorem handle_cases {e : Event} {s t : State} (h : handle e s = .next t) : Handled s e t := by
  cases e with
  | command w =>
    simp only [handle, takeCommand] at h
    split at h
    · rename_i i hd
      cases hw : i.wellFormed
      · rw [exec_of_not_wellFormed hw] at h; cases h; exact .fails w _
      · rcases exec_cases h with ⟨e, rfl⟩ | ⟨s', d, hc, rfl⟩
        · exact .fails w e
        · rw [← encode_of_decode_ok hd]; exact .carried i s' d hw hc
    · cases h; exact .fails w _
  | lane l => exact .lane l t (laneStep_cases h)
  | reset => cases h; exact .reset

/-- A step with a next state: the block waits, or the first item of the agenda happens. -/
theorem step_handled {s t : State} (h : step s = .next t) :
    (s.agenda = [] ∧ t = s) ∨ ∃ e es, s.agenda = e :: es ∧ Handled (s.setAgenda es) e t := by
  unfold step at h
  split at h
  · cases h; exact .inl ⟨‹_›, rfl⟩
  · exact .inr ⟨_, _, ‹_›, handle_cases h⟩

/-- What becomes of the state when a candidate arrives: nothing, the first accepted proof, or a smaller one (rule R145). -/
theorem publish_eq_some {n r t : FixedWord} {s s' : State} (h : publish n r t s = some s') :
    s' = s ∨ (r.toNat ≤ t.toNat ∧ s.bestValid = false ∧ s' = (s.setBest n r).setStop true) ∨
      ∃ b, r.toNat ≤ t.toNat ∧ s.bestValid = true ∧ s.bestResult = some b ∧ r.toNat < b.toNat ∧ s' = s.setBest n r := by
  rcases publish_cases n r t s with ⟨-, h'⟩ | ⟨hr, hv, h'⟩ | ⟨-, -, -, h'⟩ | ⟨b, hr, hv, hb, hlt, h'⟩ | ⟨b, -, -, -, -, h'⟩ <;>
    rw [h'] at h <;> cases h
  · exact .inl rfl
  · exact .inr (.inl ⟨hr, hv, rfl⟩)
  · exact .inr (.inr ⟨b, hr, hv, hb, hlt, rfl⟩)
  · exact .inl rfl

end Sys2Proof.Machine
end

section
/-!
PROOFS. The state of the block (spec/10_state.md): its reset values (rule R27), the status view (rule R21), what changes `PHASE`
(rule R13), what stays frozen (rules R11, R14, R15) and what a run only improves (rule R18).
-/

namespace Sys2Proof

open Sys2Proof.Machine Sys2Proof.Safety

/-! ## Reset values and the status view -/

/-- Settles O11, row by row of the table of rule R27. -/
theorem resetValues : Obligations.ResetValues := by
  intro c
  refine ⟨rfl, rfl, rfl, rfl, rfl, Memory.read_nil, rfl, rfl, rfl, fun k hk => ?_, rfl, rfl, rfl, rfl, rfl, rfl, rfl,
    fun l hl => ?_, ?_, rfl, rfl⟩
  · exact (List.getElem?_replicate ..).trans (if_pos hk)
  · exact (List.getElem?_replicate ..).trans (if_pos hl)
  · exact List.length_replicate

/-- The fields of the flags byte (rule R21). -/
theorem Machine.State.flagsByte_fields (s : State) :
    s.flagsByte.extractLsb' 0 2 = s.phase.bits ∧ s.flagsByte.getLsbD 2 = s.cValid ∧ s.flagsByte.getLsbD 3 = s.tValid ∧
      s.flagsByte.getLsbD 4 = s.done ∧ s.flagsByte.getLsbD 5 = s.hit ∧ s.flagsByte.getLsbD 6 = s.stop ∧
      s.flagsByte.getLsbD 7 = s.bestValid := by
  refine ⟨BitVec.extractLsb'_append_eq_right, ?_⟩
  simp only [State.flagsByte, BitVec.getLsbD_append]
  simp

/-- The low byte of the `STATUS` view is the flags byte: the whole byte, its two bits of `PHASE`, and each single bit. -/
theorem Machine.State.statusWord_flagsByte (s : State) :
    s.statusWord.extractLsb' 0 8 = s.flagsByte ∧ s.statusWord.extractLsb' 0 2 = s.flagsByte.extractLsb' 0 2 ∧
      ∀ i < 8, s.statusWord.getLsbD i = s.flagsByte.getLsbD i := by
  simp only [State.statusWord, BitVec.getLsbD_append, BitVec.extractLsb'_append_eq_ite]
  simp +contextual

/-- The fields of the `STATUS` view above the flags byte (rule R21). -/
theorem Machine.State.statusWord_fields (s : State) :
    s.statusWord.extractLsb' 8 7 = s.err ∧ s.statusWord.getLsbD 15 = false ∧ s.statusWord.extractLsb' 16 16 = 0 ∧
      s.statusWord.extractLsb' 32 64 = BitVec.ofNat 64 s.loadPtr ∧
      s.statusWord.extractLsb' 96 32 = BitVec.ofNat 32 s.lanesActive ∧ s.statusWord.extractLsb' 128 128 = 0 := by
  simp only [State.statusWord, BitVec.getLsbD_append, BitVec.extractLsb'_append_eq_ite]
  simp

/-- Settles O22 from the fields of the view and those of its flags byte. -/
theorem statusViewFields : Obligations.StatusViewFields := by
  intro s
  obtain ⟨hphase, hc, ht, hd, hh, hs, hb⟩ := s.flagsByte_fields
  obtain ⟨hflags, hlow, hbit⟩ := s.statusWord_flagsByte
  obtain ⟨herr, h15, hrsv, hload, hlanes, hupper⟩ := s.statusWord_fields
  refine ⟨?_, (hbit 2 (by decide)).trans hc, (hbit 3 (by decide)).trans ht, (hbit 4 (by decide)).trans hd,
    (hbit 5 (by decide)).trans hh, (hbit 6 (by decide)).trans hs, (hbit 7 (by decide)).trans hb, herr, h15, hrsv, hload, ?_,
    hupper, hflags, rfl, rfl, by simp [State.oStopped]⟩
  · rw [hlow, hphase]
    cases s.phase <;> rfl
  · rw [hlanes, State.lanesActive, List.countP_eq_length_filter]

/-! ## The frozen configuration -/

/-- The constants, the table, `LOAD_PTR`, `COMMIT`, `TARGET` and their valid bits are the same in both states. -/
structure SameConfiguration (s t : State) : Prop where
  cfg : t.cfg = s.cfg
  table : t.table = s.table
  loadPtr : t.loadPtr = s.loadPtr
  commit : t.commit = s.commit
  cValid : t.cValid = s.cValid
  target : t.target = s.target
  tValid : t.tValid = s.tValid

theorem SameConfiguration.refl (s : State) : SameConfiguration s s := ⟨rfl, rfl, rfl, rfl, rfl, rfl, rfl⟩

/-- The critical section of `L_PUBLISH` writes the best proof and `STOP` only (rule R145). -/
theorem publish_frame {n r t : FixedWord} {s s' : State} (h : publish n r t s = some s') :
    SameConfiguration s s' ∧ s'.phase = s.phase ∧ s'.lanes = s.lanes := by
  rcases publish_eq_some h with rfl | ⟨-, -, rfl⟩ | ⟨b, -, -, -, -, rfl⟩ <;>
    exact ⟨⟨rfl, rfl, rfl, rfl, rfl, rfl, rfl⟩, rfl, rfl⟩

/-- No lane step writes the configuration (rule R185). -/
theorem Machine.LaneEffect.sameConfiguration {l : Nat} {s t : State} (h : LaneEffect l s t) : SameConfiguration s t := by
  cases h with
  | none => exact .refl s
  | publishes x n r t s' hp hx hs hn hr ht h =>
    obtain ⟨⟨h1, h2, h3, h4, h5, h6, h7⟩, -, -⟩ := publish_frame h
    exact ⟨h1, h2, h3, h4, h5, h6, h7⟩
  | goesOn | exits | ends | fetches | evaluates => exact ⟨rfl, rfl, rfl, rfl, rfl, rfl, rfl⟩

/-- Outside `LOADING` no command but `RESET` writes the configuration: the load commands are not permitted there (rule R64). -/
theorem Machine.Carried.sameConfiguration {s s' : State} {i : Instr} {d : FixedWord} (h : Carried s i s' d)
    (hp : s.phase ≠ .loading) (hi : ∀ f, i ≠ .reset f) : SameConfiguration s s' := by
  cases h with
  | reset f => exact absurd rfl (hi f)
  | wrTable f h | wrCommit f h | wrTarget f h | arm f h => exact absurd h hp
  | _ => exact ⟨rfl, rfl, rfl, rfl, rfl, rfl, rfl⟩

/-- An item that is not a reset is not the word of a well-formed `RESET`. -/
theorem ne_reset_of_resets {i : Instr} (hw : i.wellFormed = true) (hr : resets (.command (encode i)) = false) (f : Fields) :
    i ≠ .reset f := by
  rintro rfl
  rw [resets_encode_reset hw] at hr
  cases hr

/-! ## What changes `PHASE` -/

/-- The commands that change `PHASE` (rule R13). -/
theorem Machine.Carried.phase_cases {s s' : State} {i : Instr} {d : FixedWord} (h : Carried s i s' d) :
    s'.phase = s.phase ∨ (∃ f, i = .reset f ∧ s'.phase = .loading) ∨
      (∃ f, i = .arm f ∧ s.phase = .loading ∧ s'.phase = .armed) ∨
      ∃ f, i = .search f ∧ s.phase = .armed ∧ s'.phase = .searching := by
  cases h with
  | reset f => exact .inr (.inl ⟨f, rfl, rfl⟩)
  | arm f hp => exact .inr (.inr (.inl ⟨f, rfl, hp, rfl⟩))
  | search f hp => exact .inr (.inr (.inr ⟨f, rfl, hp, rfl⟩))
  | _ => exact .inl rfl

theorem allExited_iff {ls : List Lane} : allExited ls = true ↔ ∀ x ∈ ls, x.state = .exited := by
  simp [allExited]

/-- The lane step that changes `PHASE`: the last exit (rules R13, R155). -/
theorem Machine.LaneEffect.phase_cases {l : Nat} {s t : State} (h : LaneEffect l s t) :
    t.phase = s.phase ∨ (s.phase = .searching ∧ t.phase = .stopped ∧ (∀ x ∈ t.lanes, x.state = .exited) ∧
      ∃ x, s.lanes[l]? = some x ∧ x.state = .check ∧ s.stop = true) := by
  cases h with
  | ends x hp hx hs h ha => exact .inr ⟨hp, rfl, allExited_iff.1 ha, x, hx, hs, h⟩
  | publishes x n r t s' hp hx hs hn hr ht h => exact .inl (publish_frame h).2.1
  | none | goesOn | exits | fetches | evaluates => exact .inl rfl

/-- Settles O45: a change of `PHASE` is a reset, one of two commands whose word is then known, or the last exit. -/
theorem phaseChangesOnlyByRule : Obligations.PhaseChangesOnlyByRule := by
  intro s t hstep hne
  rcases step_handled hstep with ⟨-, rfl⟩ | ⟨e, es, he, h⟩
  · exact absurd rfl hne
  cases h with
  | fails => exact absurd rfl hne
  | reset => exact .inl ⟨_, es, he, rfl, rfl⟩
  | carried i s' d hw h =>
    rcases h.phase_cases with heq | ⟨f, rfl, ht⟩ | ⟨f, rfl, hp, ht⟩ | ⟨f, rfl, hp, ht⟩
    · exact absurd heq hne
    · exact .inl ⟨_, es, he, resets_encode_reset hw, ht⟩
    · obtain rfl : f = ⟨0, 0, 0⟩ := fields_eq_zero_of_wellFormed hw rfl rfl
      exact .inr (.inl ⟨hp, ht, es, he⟩)
    · obtain rfl : f = ⟨0, 0, 0⟩ := fields_eq_zero_of_wellFormed hw rfl rfl
      exact .inr (.inr (.inl ⟨hp, ht, es, he⟩))
  | lane l t h =>
    rcases h.phase_cases with h | ⟨hp, ht, hexit, x, hx, hs, hstop⟩
    · exact absurd h hne
    · exact .inr (.inr (.inr ⟨hp, ht, hexit, l, es, x, he, hx, hs, hstop⟩))

/-! ## What never changes -/

/-- No item writes the constants (rule R11). -/
theorem Machine.Handled.cfg_eq {s t : State} {e : Event} (h : Handled s e t) : t.cfg = s.cfg := by
  cases h with
  | carried i s' d hw h => cases h <;> rfl
  | lane l t h => exact h.sameConfiguration.cfg
  | fails | reset => rfl

/-- An item that is not a reset keeps the configuration once it is armed (rules R14, R15, R46). -/
theorem Machine.Handled.sameConfiguration {s t : State} {e : Event} (h : Handled s e t) (hp : s.phase ≠ .loading)
    (hr : resets e = false) : SameConfiguration s t := by
  cases h with
  | fails => exact ⟨rfl, rfl, rfl, rfl, rfl, rfl, rfl⟩
  | carried i s' d hw h =>
    obtain ⟨h1, h2, h3, h4, h5, h6, h7⟩ := h.sameConfiguration hp (ne_reset_of_resets hw hr)
    exact ⟨h1, h2, h3, h4, h5, h6, h7⟩
  | lane l t h => exact h.sameConfiguration
  | reset => cases hr

/-- Only a reset enters `LOADING` (rule R13). -/
theorem Machine.Handled.phase_ne_loading {s t : State} {e : Event} (h : Handled s e t) (hp : s.phase ≠ .loading)
    (hr : resets e = false) : t.phase ≠ .loading := by
  cases h with
  | fails => exact hp
  | carried i s' d hw h =>
    rcases h.phase_cases with h | ⟨f, rfl, -⟩ | ⟨f, -, -, h⟩ | ⟨f, -, -, h⟩
    · exact fun hl => hp (h.symm.trans hl)
    · exact absurd rfl (ne_reset_of_resets hw hr f)
    all_goals simp [h]
  | lane l t h => rcases h.phase_cases with h | ⟨-, h, -⟩ <;> simp [h, hp]
  | reset => cases hr

/-- Settles O46: no item writes the constants, and after `ARM` only a reset writes the rest of the configuration. -/
theorem configurationIsFrozen : Obligations.ConfigurationIsFrozen := by
  intro s t hstep
  rcases step_handled hstep with ⟨-, rfl⟩ | ⟨e, es, he, h⟩
  · exact ⟨rfl, fun hp _ => ⟨hp, rfl, rfl, rfl, rfl, rfl, rfl⟩⟩
  · refine ⟨h.cfg_eq, fun hp hr => ?_⟩
    obtain ⟨-, htable, hptr, hcommit, hc, htarget, ht⟩ := h.sameConfiguration hp (hr e es he)
    exact ⟨h.phase_ne_loading hp (hr e es he), htable, hptr, hcommit, hc, htarget, ht⟩

/-! ## What a run only improves -/

/-- From `s` to `t` the stop flag stays set, and an accepted proof stays or gives way to one with a strictly smaller result
(rule R18). -/
def Improves (s t : State) : Prop :=
  (s.stop = true → t.stop = true) ∧
    (s.bestValid = true → t.bestValid = true ∧ ∀ b, s.bestResult = some b →
      (t.bestNonce = s.bestNonce ∧ t.bestResult = some b) ∨ ∃ b', t.bestResult = some b' ∧ b'.toNat < b.toNat)

/-- A change that leaves the best proof alone and does not clear `STOP`. -/
theorem improves_of_sameBest {s t : State} (hs : s.stop = true → t.stop = true) (hv : t.bestValid = s.bestValid)
    (hn : t.bestNonce = s.bestNonce) (hr : t.bestResult = s.bestResult) : Improves s t :=
  ⟨hs, fun h => ⟨hv.trans h, fun _ hb => .inl ⟨hn, hr.trans hb⟩⟩⟩

/-- The critical section of `L_PUBLISH` replaces an accepted proof by a strictly smaller result only (rule R145). -/
theorem publish_improves {n r t : FixedWord} {s s' : State} (h : publish n r t s = some s') : Improves s s' := by
  rcases publish_eq_some h with rfl | ⟨-, hv, rfl⟩ | ⟨b, -, -, hb, hlt, rfl⟩
  · exact improves_of_sameBest id rfl rfl rfl
  · exact ⟨fun _ => rfl, fun h => by rw [hv] at h; cases h⟩
  · refine ⟨id, fun _ => ⟨rfl, fun b' hb' => .inr ⟨r, rfl, ?_⟩⟩⟩
    rw [hb] at hb'
    cases hb'
    exact hlt

theorem Machine.LaneEffect.improves {l : Nat} {s t : State} (h : LaneEffect l s t) : Improves s t := by
  cases h with
  | publishes x n r t s' hp hx hs hn hr ht h => exact (publish_improves h : Improves s s')
  | none | goesOn | exits | ends | fetches | evaluates => exact improves_of_sameBest id rfl rfl rfl

/-- Once a run has begun only `RESET` and `SEARCH` would clear the flags, and `SEARCH` is not permitted (rule R64). -/
theorem Machine.Carried.improves {s s' : State} {i : Instr} {d : FixedWord} (h : Carried s i s' d) (hp : s.phase ≠ .armed)
    (hi : ∀ f, i ≠ .reset f) : Improves s s' := by
  cases h with
  | reset f => exact absurd rfl (hi f)
  | search f h => exact absurd h hp
  | halt f h => exact improves_of_sameBest (fun _ => rfl) rfl rfl rfl
  | _ => exact improves_of_sameBest id rfl rfl rfl

/-- Settles O47: the one writer of an accepted proof in a run is the critical section of `L_PUBLISH`. -/
theorem stopAndBestOnlyImprove : Obligations.StopAndBestOnlyImprove := by
  intro s t hstep hp hr
  rcases step_handled hstep with ⟨-, rfl⟩ | ⟨e, es, he, h⟩
  · exact improves_of_sameBest id rfl rfl rfl
  specialize hr e es he
  cases h with
  | fails => exact improves_of_sameBest id rfl rfl rfl
  | carried i s' d hw h =>
    have hne : s.phase ≠ .armed := by rcases hp with hp | hp <;> simp [hp]
    exact h.improves hne (ne_reset_of_resets hw hr)
  | lane l t h => exact h.improves
  | reset => cases hr

end Sys2Proof
end

section
/-!
PROOFS. The invariants of spec/10_state.md rule R28: they hold after reset, every step keeps them, and a state that meets them
always has a next state (rules R12, R179).
-/

namespace Sys2Proof

open Sys2Proof.Machine Sys2Proof.Safety

/-! ## The reset state -/

/-- The reset values of rule R27 meet every item of rule R28. -/
theorem inv_resetOf (c : Config) : Inv (State.resetOf c) where
  tableForm := Memory.wf_nil
  loadBound := Nat.zero_le _
  tableHolds := by simp
  commitHolds := rfl
  targetHolds := rfl
  contextHolds := ⟨rfl, rfl, by simp⟩
  idxCount := rfl
  bestHolds := ⟨rfl, rfl⟩
  laneCount := List.length_replicate
  laneHolds := by simp [Lane.reset]
  armed := fun h => absurd rfl h
  beforeRun := fun _ => ⟨rfl, rfl, rfl, by simp [Lane.reset]⟩
  running := nofun
  ended := nofun
  best := nofun
  hitDone := nofun
  context := nofun
  laneResult := by simp [Lane.reset]

/-- With the cursor at its first value no nonce is drawn. -/
theorem not_drawn_resetOf (c : Config) (n : FixedWord) : ¬ drawn (State.resetOf c) n := by
  simp [drawn]

theorem not_inHand_resetOf (c : Config) (n : FixedWord) : ¬ inHand (State.resetOf c) n := by
  simp [inHand, Lane.reset]

/-- What is still to happen is no part of the invariants. -/
theorem Safety.Inv.setAgenda {s : State} (h : Inv s) (es : List Event) : Inv (s.setAgenda es) := { h with }

theorem Safety.Inv.setErr {s : State} (h : Inv s) (e : BitVec 7) : Inv (s.setErr e) := { h with }

theorem Safety.Inv.respondOk {s : State} (h : Inv s) (d : FixedWord) : Inv (s.respondOk d) := { h with }

theorem Safety.Inv.fail {s : State} (h : Inv s) (e : ErrorCode) : Inv (s.fail e) := { h with }

theorem Safety.Inv.resetBlock {s : State} : Inv s.resetBlock := { inv_resetOf s.cfg with }

/-- Settles O43: nothing is drawn and no lane holds a nonce after reset. -/
theorem invariantsHoldAfterReset : Obligations.InvariantsHoldAfterReset := by
  intro c es
  refine ⟨(inv_resetOf c).setAgenda es, fun n h => absurd h (not_drawn_resetOf c n), ?_, inv_resetOf _⟩
  exact {
    handDrawn := fun n h => absurd h (not_inHand_resetOf c n)
    bestDrawn := nofun
    handDistinct := fun l m x y n hx _ hs _ hn _ =>
      absurd ⟨x, List.mem_of_getElem? hx, hs, hn⟩ (not_inHand_resetOf c n) }

/-! ## The load commands -/

section BeforeRun
variable {s : State}

/-- Before a run every lane is as after reset. -/
theorem Safety.Inv.lanes_eq_reset (h : Inv s) (hp : s.phase = .loading ∨ s.phase = .armed) :
    s.lanes = List.replicate s.cfg.W Lane.reset := by
  refine List.eq_replicate_iff.2 ⟨h.laneCount, fun x hx => ?_⟩
  obtain ⟨-, -, -, hidle⟩ := h.beforeRun hp
  have hx' := h.laneHolds x hx
  have hs := hidle x hx
  obtain ⟨st, n, r⟩ := x
  simp_all [Lane.reset]

/-- Before a run no lane waits to publish a result. -/
theorem Safety.Inv.laneResult_ne_some (h : Inv s) (hp : s.phase = .loading ∨ s.phase = .armed) {x : Lane} (hx : x ∈ s.lanes)
    (r : FixedWord) : x.result ≠ some r := by
  rw [h.lanes_eq_reset hp] at hx
  simp [List.eq_of_mem_replicate hx, Lane.reset]

theorem Safety.Inv.not_bestValid (h : Inv s) (hp : s.phase = .loading ∨ s.phase = .armed) : ¬ s.bestValid = true := by
  obtain ⟨-, hv, -, -⟩ := h.beforeRun hp
  simp [hv]

/-- No evaluation was made while loading (item 7). -/
theorem Safety.Inv.not_done (h : Inv s) (hp : s.phase = .loading) : ¬ s.done = true := fun hd => (h.context hd).1 hp

/-- `WR_TABLE` writes the first word that holds no value, so the words below `LOAD_PTR` still hold one (rule R83). -/
theorem Safety.Inv.appendTable (h : Inv s) (hp : s.phase = .loading) (hN : s.loadPtr ≠ s.cfg.N) (v : FixedWord) :
    Inv (s.appendTable v) :=
  { h with
    tableForm := Memory.wf_write h.tableForm _ _
    loadBound := Nat.lt_of_le_of_ne h.loadBound hN
    tableHolds := fun i => by
      rw [State.appendTable_table, State.appendTable_loadPtr, Memory.read_write]
      split
      · simp [*]
      · rw [h.tableHolds]
        exact decide_eq_decide.2 (by omega)
    armed := fun hne => absurd hp hne
    best := fun hv => absurd hv (h.not_bestValid (.inl hp))
    context := fun hd => absurd hd (h.not_done hp)
    laneResult := fun _ hx _ _ _ hr => absurd hr (h.laneResult_ne_some (.inl hp) hx _) }

/-- `WR_COMMIT` (rule R84): no result depends on the commitment yet. -/
theorem Safety.Inv.setCommit (h : Inv s) (hp : s.phase = .loading) (v : FixedWord) : Inv (s.setCommit v) :=
  { h with
    commitHolds := rfl
    armed := fun hne => absurd hp hne
    best := fun hv => absurd hv (h.not_bestValid (.inl hp))
    context := fun hd => absurd hd (h.not_done hp)
    laneResult := fun _ hx _ _ _ hr => absurd hr (h.laneResult_ne_some (.inl hp) hx _) }

/-- `WR_TARGET` (rule R85): nothing was compared with the target yet. -/
theorem Safety.Inv.setTarget (h : Inv s) (hp : s.phase = .loading) (v : FixedWord) : Inv (s.setTarget v) :=
  { h with
    targetHolds := rfl
    armed := fun hne => absurd hp hne
    best := fun hv => absurd hv (h.not_bestValid (.inl hp))
    context := fun hd => absurd hd (h.not_done hp) }

/-- `ARM` (rule R86) checks what item 2 says. -/
theorem Safety.Inv.arm (h : Inv s) (hp : s.phase = .loading)
    (hready : ¬ (s.loadPtr < s.cfg.N ∨ s.cValid = false ∨ s.tValid = false)) : Inv (s.setPhase .armed) :=
  { h with
    armed := fun _ => by
      simp only [not_or, Bool.not_eq_false, not_lt] at hready
      obtain ⟨hN, hc, ht⟩ := hready
      exact ⟨Nat.le_antisymm h.loadBound hN, hc, ht⟩
    beforeRun := fun _ => h.beforeRun (.inl hp)
    running := nofun
    ended := nofun
    context := fun hd => absurd hd (h.not_done hp) }

theorem Config.one_le_W (c : Config) : 1 ≤ c.W := by
  obtain ⟨-, -, -, -, -, hW, -⟩ := c.legal
  exact hW

/-- `SEARCH` (rule R140) sends every lane to `CHECK`, holding nothing; there is at least one lane (rule R6). -/
theorem Safety.Inv.startRun (h : Inv s) (hp : s.phase = .armed) : Inv s.startRun :=
  have hlanes : s.startRun.lanes = List.replicate s.cfg.W ⟨.check, none, none⟩ := by
    simp [h.lanes_eq_reset (.inr hp), Lane.reset]
  have hlane : ∀ x ∈ s.startRun.lanes, x = ⟨.check, none, none⟩ := fun x hx => by
    rw [hlanes] at hx
    exact List.eq_of_mem_replicate hx
  { h with
    bestHolds := ⟨rfl, rfl⟩
    laneCount := (List.length_map _).trans h.laneCount
    laneHolds := fun x hx => by simp [hlane x hx]
    armed := fun _ => h.armed (by simp [hp])
    beforeRun := nofun
    running := fun _ => ⟨fun x hx => by simp [hlane x hx], ⟨.check, none, none⟩,
      hlanes ▸ List.mem_replicate.2 ⟨Nat.pos_iff_ne_zero.1 s.cfg.one_le_W, rfl⟩, rfl⟩
    ended := nofun
    best := nofun
    context := fun hd => ⟨nofun, (h.context hd).2⟩
    laneResult := fun x hx n r _ hr => by simp [hlane x hx] at hr }

end BeforeRun

/-! ## `EVAL` and `HALT` -/

/-- An evaluation has ten indices (rule R106). -/
theorem evaluate_idx_length {c : Config} {T : Memory} {commitment n : FixedWord} {e : Evaluation}
    (h : evaluate c T commitment n = some e) : e.idx.length = 10 := by
  rw [(evaluate_eq_some.1 h).2, List.length_map, roundIndices_length]

section Commands
variable {s : State}

/-- `EVAL` (rule R108) leaves the last evaluation in the host context. -/
theorem Safety.Inv.setContext (h : Inv s) (hp : s.phase = .armed ∨ s.phase = .stopped) {c t n : FixedWord} {e : Evaluation}
    (hc : s.commit = some c) (he : evaluate s.cfg s.table c n = some e) (ht : s.target = some t) :
    Inv (s.setContext n e.result e.idx (isHit e.result t)) :=
  { h with
    contextHolds := ⟨rfl, rfl, by simp⟩
    idxCount := (List.length_map _).trans (evaluate_idx_length he)
    hitDone := fun _ => rfl
    context := fun _ => ⟨by rcases hp with hp | hp <;> simp [hp], c, t, n, e, hc, ht, rfl, he, rfl, rfl, rfl⟩ }

/-- `HALT` (rule R141), and the first accepted proof (rule R145). -/
theorem Safety.Inv.setStop (h : Inv s) (hp : s.phase = .searching) : Inv (s.setStop true) :=
  { h with
    beforeRun := by simp [hp]
    ended := by simp [hp]
    best := fun hv => ⟨rfl, (h.best hv).2⟩ }

/-- A well-formed command keeps the invariants. -/
theorem Machine.Carried.inv {i : Instr} {s' : State} {d : FixedWord} (hc : Carried s i s' d) (h : Inv s) : Inv s' := by
  cases hc with
  | reset => exact .resetBlock
  | clrErr => exact h.setErr 0
  | wrTable f hp hN => exact h.appendTable hp hN f.data
  | wrCommit f hp => exact h.setCommit hp f.data
  | wrTarget f hp => exact h.setTarget hp f.data
  | arm f hp hready => exact h.arm hp hready
  | eval f c t e hp hc he ht => exact h.setContext hp hc he ht
  | search f hp => exact h.startRun hp
  | halt f hp => exact h.setStop hp
  | nop | rdStatus | rdConst | rdCommit | rdTarget | rdTable | rdNonce | rdResult | rdIdx | rdCursor | rdBestNonce
  | rdBestResult => exact h

end Commands

/-! ## The lane steps -/

/-- What the invariants say of one lane (rule R19): which registers hold a value, and that a result is that of its nonce. -/
structure LaneInv (s : State) (x : Lane) : Prop where
  nonceHolds : x.nonce.isSome = decide (x.state = .eval ∨ x.state = .publish)
  resultHolds : x.result.isSome = decide (x.state = .publish)
  resultOf : ∀ n r, x.nonce = some n → x.result = some r → ResultOf s n r

section Lanes
variable {s : State} {l : Nat}

theorem Safety.Inv.laneInv (h : Inv s) {x : Lane} (hx : x ∈ s.lanes) : LaneInv s x :=
  ⟨(h.laneHolds x hx).1, (h.laneHolds x hx).2, h.laneResult x hx⟩

/-- `L_CHECK` moves a lane that holds nothing to a state in which it holds nothing (rule R142). -/
theorem LaneInv.ofCheck {x : Lane} (h : LaneInv s x) (hx : x.state = .check) {p : LaneState} (hp : p ≠ .eval ∧ p ≠ .publish) :
    LaneInv s { x with state := p } where
  nonceHolds := by simpa [hx, hp] using h.nonceHolds
  resultHolds := by simpa [hx, hp] using h.resultHolds
  resultOf := h.resultOf

/-- After a change of one lane, what holds of that lane and of every lane before holds of every lane. -/
theorem Safety.Inv.laneInv_set (h : Inv s) {y : Lane} (hy : LaneInv s y) : ∀ x ∈ s.lanes.set l y, LaneInv s x := fun _ hx =>
  (List.mem_or_eq_of_mem_set hx).elim h.laneInv (· ▸ hy)

/-- A lane is active unless it is `IDLE` or has exited (rule R19). -/
theorem active_of_ne {p : LaneState} (hi : p ≠ .idle) (he : p ≠ .exited) : p.active = true := by
  cases p <;> simp_all [LaneState.active]

/-- In a run no lane is `IDLE`, so one that has not exited is active (item 4). -/
theorem exists_active {ls : List Lane} (hi : ∀ x ∈ ls, x.state ≠ .idle) (ha : allExited ls = false) :
    ∃ x ∈ ls, x.state.active = true := by
  have hn : ¬ ∀ x ∈ ls, x.state = .exited := fun hx => by rw [allExited_iff.2 hx] at ha; cases ha
  push Not at hn
  obtain ⟨x, hx, hne⟩ := hn
  exact ⟨x, hx, active_of_ne (hi x hx) hne⟩

theorem Safety.Inv.ne_idle_set (h : Inv s) (hp : s.phase = .searching) {y : Lane} (hi : y.state ≠ .idle) :
    ∀ x ∈ s.lanes.set l y, x.state ≠ .idle := fun x hx =>
  (List.mem_or_eq_of_mem_set hx).elim ((h.running hp).1 x) (· ▸ hi)

/-- A lane takes a new place in its loop, and the run goes on. -/
theorem Safety.Inv.setLane (h : Inv s) (hp : s.phase = .searching) {y : Lane} (hy : LaneInv s y) (hi : y.state ≠ .idle)
    (hactive : ∃ x ∈ s.lanes.set l y, x.state.active = true) : Inv (s.setLane l y) :=
  { h with
    laneCount := List.length_set.trans h.laneCount
    laneHolds := fun x hx => ⟨(h.laneInv_set hy x hx).nonceHolds, (h.laneInv_set hy x hx).resultHolds⟩
    beforeRun := by simp [hp]
    running := fun _ => ⟨h.ne_idle_set hp hi, hactive⟩
    ended := by simp [hp]
    laneResult := fun x hx => (h.laneInv_set hy x hx).resultOf }

/-- The same for a lane that stays active. -/
theorem Safety.Inv.setLane_active (h : Inv s) (hp : s.phase = .searching) {x y : Lane} (hx : s.lanes[l]? = some x)
    (hy : LaneInv s y) (ha : y.state.active = true) : Inv (s.setLane l y) := by
  obtain ⟨hl, -⟩ := List.getElem?_eq_some_iff.1 hx
  exact h.setLane hp hy (fun hi => by rw [hi] at ha; cases ha) ⟨y, List.mem_set hl y, ha⟩

/-- The last lane exits: the run is over (rule R142). -/
theorem Safety.Inv.endRun (h : Inv s) (hp : s.phase = .searching) {y : Lane} (hy : LaneInv s y) (hstop : s.stop = true)
    (hexit : ∀ x ∈ s.lanes.set l y, x.state = .exited) : Inv ((s.setLane l y).setPhase .stopped) :=
  { h with
    laneCount := List.length_set.trans h.laneCount
    laneHolds := fun x hx => ⟨(h.laneInv_set hy x hx).nonceHolds, (h.laneInv_set hy x hx).resultHolds⟩
    armed := fun _ => h.armed (by simp [hp])
    beforeRun := nofun
    running := nofun
    ended := fun _ => ⟨hexit, hstop, List.countP_eq_zero.2 fun x hx => by simp [hexit x hx, LaneState.active]⟩
    context := fun hd => ⟨nofun, (h.context hd).2⟩
    laneResult := fun x hx => (h.laneInv_set hy x hx).resultOf }

/-- `L_FETCH` moves the cursor (rule R143). -/
theorem Safety.Inv.setCursor (h : Inv s) (hp : s.phase = .searching) (v : FixedWord) : Inv (s.setCursor v) :=
  { h with beforeRun := by simp [hp] }

/-- A hit becomes the accepted proof once `STOP` is set (rule R145). -/
theorem Safety.Inv.setBest (h : Inv s) (hp : s.phase = .searching) (hstop : s.stop = true) {n r t : FixedWord}
    (ht : s.target = some t) (hle : r.toNat ≤ t.toNat) (hr : ResultOf s n r) : Inv (s.setBest n r) :=
  { h with
    bestHolds := ⟨rfl, rfl⟩
    beforeRun := by simp [hp]
    best := fun _ => ⟨hstop, t, n, r, ht, rfl, rfl, hle, hr⟩ }

/-- The critical section of `L_PUBLISH` (rule R145). -/
theorem Safety.Inv.of_publish (h : Inv s) (hp : s.phase = .searching) {n r t : FixedWord} {s' : State} (ht : s.target = some t)
    (hr : ResultOf s n r) (hs' : publish n r t s = some s') : Inv s' := by
  rcases publish_eq_some hs' with rfl | ⟨hle, -, rfl⟩ | ⟨b, hle, hv, -, -, rfl⟩
  · exact h
  · exact (h.setStop hp).setBest hp rfl ht hle hr
  · exact h.setBest hp (h.best hv).1 ht hle hr

/-- A lane step keeps the invariants. -/
theorem Machine.LaneEffect.inv {t : State} (he : LaneEffect l s t) (h : Inv s) : Inv t := by
  cases he with
  | none => exact h
  | goesOn x hp hx hs hstop =>
    exact h.setLane_active hp hx ((h.laneInv (List.mem_of_getElem? hx)).ofCheck hs (by decide)) rfl
  | exits x hp hx hs hstop ha =>
    exact h.setLane hp ((h.laneInv (List.mem_of_getElem? hx)).ofCheck hs (by decide)) nofun
      (exists_active (h.ne_idle_set hp nofun) ha)
  | ends x hp hx hs hstop ha =>
    exact h.endRun hp ((h.laneInv (List.mem_of_getElem? hx)).ofCheck hs (by decide)) hstop (allExited_iff.1 ha)
  | fetches x hp hx hs =>
    have hr : x.result = .none := by simpa [hs] using (h.laneInv (List.mem_of_getElem? hx)).resultHolds
    have hy : LaneInv (s.setCursor (s.cursor + 1)) { x with state := .eval, nonce := some s.cursor } :=
      ⟨rfl, by simp [hr], by simp [hr]⟩
    exact (h.setCursor hp (s.cursor + 1)).setLane_active hp hx hy rfl
  | evaluates x c n e hp hx hs hc hn he =>
    refine h.setLane_active hp hx ⟨by simp [hn], rfl, ?_⟩ rfl
    rintro n' r hn' hr
    obtain rfl : n = n' := Option.some.inj (hn.symm.trans hn')
    exact ⟨c, e, hc, he, Option.some.inj hr⟩
  | publishes x n r t s' hp hx hs hn hr ht hs' =>
    obtain ⟨-, hphase, hlanes⟩ := publish_frame hs'
    have hres : ResultOf s n r := h.laneResult x (List.mem_of_getElem? hx) n r hn hr
    exact (h.of_publish hp ht hres hs').setLane_active (hphase.trans hp) (hlanes ▸ hx) ⟨rfl, rfl, nofun⟩ rfl

end Lanes

/-- Every item of an execution keeps the invariants. -/
theorem Machine.Handled.inv {s t : State} {e : Event} (he : Handled s e t) (h : Inv s) : Inv t := by
  cases he with
  | fails w e => exact h.fail e
  | carried i s' d hw hc => exact (hc.inv h).respondOk d
  | lane l t hl => exact hl.inv h
  | reset => exact .resetBlock

/-- Settles O42: each thing the next item can do keeps the invariants. -/
theorem stepKeepsInvariants : Obligations.StepKeepsInvariants := by
  intro s t h hstep
  rcases step_handled hstep with ⟨-, rfl⟩ | ⟨e, es, -, he⟩
  · exact h
  · exact he.inv (h.setAgenda es)

/-! ## No step stops -/

section Progress
variable {s : State}

/-- From `ARM` on every evaluation has its operands and a value at every table word it reads (rule R12). -/
theorem Safety.Inv.exists_evaluation (h : Inv s) (hp : s.phase ≠ .loading) (n : FixedWord) :
    ∃ c t e, s.commit = some c ∧ s.target = some t ∧ evaluate s.cfg s.table c n = some e := by
  obtain ⟨hN, hc, ht⟩ := h.armed hp
  obtain ⟨c, hc⟩ := Option.isSome_iff_exists.1 (h.commitHolds.trans hc)
  obtain ⟨t, ht⟩ := Option.isSome_iff_exists.1 (h.targetHolds.trans ht)
  have hfull : ∀ i < s.cfg.N, (Memory.read s.table i).isSome = true := fun i hi => by
    rw [h.tableHolds, hN]
    exact decide_eq_true hi
  obtain ⟨e, he⟩ := evaluate_isSome hfull c n
  exact ⟨c, t, e, hc, ht, he⟩

/-- A command whose effect has a next state where the phase permits it has one always: a failed check is answered. -/
theorem checked_progress {use : FieldUse} {permitted : Phase → Bool} {f : Fields} {o : Host.Outcome State Fault Refusal}
    (h : permitted s.phase = true → ∃ t, o = .next t) : ∃ t, checked use permitted f s o = .next t := by
  rcases checked_cases use permitted f s o with ⟨-, h'⟩ | ⟨-, -, h'⟩ | ⟨-, hp, h'⟩
  · exact ⟨_, h'⟩
  · exact ⟨_, h'⟩
  · rw [h']; exact h hp

/-- A read of a register that holds a value is answered. -/
theorem finishWith_progress {cell : ValueCell} {v : Option FixedWord} (h : v.isSome = true) :
    ∃ t, finishWith s cell v = .next t := by
  obtain ⟨d, rfl⟩ := Option.isSome_iff_exists.1 h
  exact ⟨_, rfl⟩

/-- A read behind a valid bit that says whether the register holds a value is answered, with the value or `E_NODATA`. -/
theorem guardedRead_progress {valid : Bool} {cell : ValueCell} {v : Option FixedWord} (h : v.isSome = valid) :
    ∃ t, (if valid = false then raise s .noData else finishWith s cell v) = .next t := by
  cases valid
  · exact ⟨_, if_pos rfl⟩
  · exact finishWith_progress h

/-- A table word below `LOAD_PTR` holds a value, so `RD_TABLE` is answered (rule R124). -/
theorem Safety.Inv.rdTable_progress (h : Inv s) (a : Nat) :
    ∃ t, (if s.cfg.N ≤ a then raise s .addr else if s.loadPtr ≤ a then raise s .noData
      else finishWith s .tableWord (Memory.read s.table a)) = .next t := by
  split
  · exact ⟨_, rfl⟩
  · split
    · exact ⟨_, rfl⟩
    · exact finishWith_progress ((h.tableHolds a).trans (decide_eq_true (by omega)))

/-- Each of the ten IDX registers holds a value exactly when `DONE` says so (rule R17). -/
theorem Safety.Inv.readIdx_isSome (h : Inv s) {k : Nat} (hk : k < 10) : (s.readIdx k).isSome = s.done := by
  obtain ⟨-, -, hidx⟩ := h.contextHolds
  have hlt : k < s.idx.length := h.idxCount ▸ hk
  rw [← hidx _ (List.getElem_mem hlt), State.readIdx, List.getElem?_eq_getElem hlt]
  cases s.idx[k] <;> rfl

/-- Every command is answered (rules R12, R170). -/
theorem Safety.Inv.exec_progress (h : Inv s) (i : Instr) : ∃ t, exec i s = .next t := by
  obtain ⟨hnonce, hresult, -⟩ := h.contextHolds
  obtain ⟨hbestNonce, hbestResult⟩ := h.bestHolds
  cases i <;> refine checked_progress fun hp => ?_
  case eval f =>
    obtain ⟨c, t, e, hc, ht, he⟩ := h.exists_evaluation (by intro hl; rw [hl] at hp; cases hp) f.data
    exact ⟨(s.setContext f.data e.result e.idx (isHit e.result t)).respondOk e.result, by simp [evalContext, hc, ht, he, finish]⟩
  case wrTable => split <;> exact ⟨_, rfl⟩
  case arm => split <;> exact ⟨_, rfl⟩
  case rdConst => split <;> exact ⟨_, rfl⟩
  case rdTable f => exact h.rdTable_progress f.addr.toNat
  case rdIdx f =>
    split
    · exact ⟨_, rfl⟩
    · exact guardedRead_progress (h.readIdx_isSome (by omega))
  case rdCommit => exact guardedRead_progress h.commitHolds
  case rdTarget => exact guardedRead_progress h.targetHolds
  case rdNonce => exact guardedRead_progress hnonce
  case rdResult => exact guardedRead_progress hresult
  case rdBestNonce => exact guardedRead_progress hbestNonce
  case rdBestResult => exact guardedRead_progress hbestResult
  all_goals exact ⟨_, rfl⟩

/-- The critical section of `L_PUBLISH` finds a value to compare with (rule R145). -/
theorem Safety.Inv.publish_progress (h : Inv s) (n r t : FixedWord) : ∃ s', publish n r t s = some s' := by
  rcases publish_cases n r t s with ⟨-, h'⟩ | ⟨-, -, h'⟩ | ⟨-, hv, hb, -⟩ | ⟨b, -, -, -, -, h'⟩ | ⟨b, -, -, -, -, h'⟩
  case inr.inr.inl =>
    have := h.bestHolds.2
    simp [hv, hb] at this
  all_goals exact ⟨_, h'⟩

/-- `L_EVAL` has its operands: its lane holds a nonce (rules R12, R144). -/
theorem Safety.Inv.laneEval_progress (h : Inv s) (hp : s.phase ≠ .loading) {x : Lane} (hx : LaneInv s x)
    (hs : x.state = .eval) (l : Nat) : ∃ t, laneEval l x s = .next t := by
  obtain ⟨n, hn⟩ := Option.isSome_iff_exists.1 (hx.nonceHolds.trans (by simp [hs]))
  obtain ⟨c, -, e, hc, -, he⟩ := h.exists_evaluation hp n
  exact ⟨s.setLane l { x with state := .publish, result := some e.result }, by simp [laneEval, hc, hn, he]⟩

/-- `L_PUBLISH` has its operands: its lane holds a nonce and a result (rules R12, R145). -/
theorem Safety.Inv.lanePublish_progress (h : Inv s) (hp : s.phase ≠ .loading) {x : Lane} (hx : LaneInv s x)
    (hs : x.state = .publish) (l : Nat) : ∃ t, lanePublish l x s = .next t := by
  obtain ⟨n, hn⟩ := Option.isSome_iff_exists.1 (hx.nonceHolds.trans (by simp [hs]))
  obtain ⟨r, hr⟩ := Option.isSome_iff_exists.1 (hx.resultHolds.trans (by simp [hs]))
  obtain ⟨-, t, -, -, ht, -⟩ := h.exists_evaluation hp n
  obtain ⟨s', hs'⟩ := h.publish_progress n r t
  exact ⟨s'.setLane l { state := .check, nonce := none, result := none }, by simp [lanePublish, hn, hr, ht, hs']⟩

/-- `L_CHECK` goes on, exits or ends the run (rule R142). -/
theorem laneCheck_progress (l : Nat) (x : Lane) : ∃ t, laneCheck l x s = .next t := by
  unfold laneCheck
  split <;> exact ⟨_, rfl⟩

/-- Every lane step has a next state (rule R179). -/
theorem Safety.Inv.laneStep_progress (h : Inv s) (l : Nat) : ∃ t, laneStep l s = .next t := by
  unfold laneStep
  by_cases hp : s.phase = .searching
  · have hne : s.phase ≠ .loading := by simp [hp]
    rw [if_pos hp]
    cases hl : s.lanes[l]? with
    | none => exact ⟨s, rfl⟩
    | some x =>
      have hx := h.laneInv (List.mem_of_getElem? hl)
      cases hs : x.state with
      | check => simpa [hs] using laneCheck_progress l x
      | eval => simpa [hs] using h.laneEval_progress hne hx hs l
      | publish => simpa [hs] using h.lanePublish_progress hne hx hs l
      | idle | fetch | exited => simp [hs, laneFetch]
  · exact ⟨s, if_neg hp⟩

/-- Every item of an execution has a next state. -/
theorem Safety.Inv.handle_progress (h : Inv s) (e : Event) : ∃ t, handle e s = .next t := by
  cases e with
  | command w =>
    simp only [handle, takeCommand]
    split
    · exact h.exec_progress _
    · exact ⟨_, rfl⟩
  | lane l => exact h.laneStep_progress l
  | reset => exact ⟨_, rfl⟩

end Progress

/-- Settles O44: the next item, command, lane step or reset, has a next state. -/
theorem noStepEverStops : Obligations.NoStepEverStops := by
  intro s h
  unfold Machine.step
  split
  · exact ⟨s, rfl⟩
  · exact (h.setAgenda _).handle_progress _

end Sys2Proof
end

section
/-!
PROOFS. Memory access (spec/20_memory.md): no read command has a side effect (rule R45).
-/

namespace Sys2Proof

open Sys2Proof.Machine Sys2Proof.Safety

/-- The `code` field of a response word (rule R61). -/
@[simp] theorem Machine.responseWord_code (code flags : BitVec 8) (data : FixedWord) :
    (responseWord code flags data).extractLsb' 312 8 = code := by
  simp only [responseWord, BitVec.extractLsb'_append_eq_ite]
  simp

/-- No error code is the code of `OK` (rule R171). -/
theorem Machine.ErrorCode.code_ne_ok (e : ErrorCode) : e.code ≠ 0 := by
  cases e <;> decide

/-- A read command that is carried out leaves the state as it is; only the answer is still to come (rules R120 to R130). -/
theorem Machine.Carried.eq_of_isRead {s s' : State} {i : Instr} {d : FixedWord} (h : Carried s i s' d)
    (hr : isRead i = true) : s' = s := by
  cases h
  case nop | reset | clrErr | wrTable | wrCommit | wrTarget | arm | eval | search | halt => cases hr
  all_goals rfl

/-- Settles O41: a read that fails sets its sticky bit and is answered with an error code, and one that is carried out is only
answered. -/
theorem readsHaveNoSideEffect : Obligations.ReadsHaveNoSideEffect := by
  intro i s t hr h
  rcases exec_cases h with ⟨e, rfl⟩ | ⟨s', d, hc, rfl⟩
  · refine ⟨responseWord e.code s.flagsByte 0, s.err ||| e.bit, rfl, fun hok => ?_⟩
    rw [responseWord_code] at hok
    exact absurd hok e.code_ne_ok
  · rw [hc.eq_of_isRead hr]
    exact ⟨responseWord okCode s.flagsByte d, s.err, rfl, fun _ => rfl⟩

end Sys2Proof
end

section
/-!
PROOFS. The command encoding (spec/30_encoding.md): decoding and encoding (rules R60, R63), undefined opcodes (rule R65), the
canonical byte form (rule R62), and one response per command on the port (rules R61, R68).
-/

namespace Sys2Proof

open Sys2Proof.Machine Sys2Proof.Safety

/-! ## Decoding and encoding -/

/-- The opcode map finds every command under the command's own opcode (rule R63). -/
theorem opcodeMap_lookup_opcode (i : Instr) :
    ∃ command, opcodeMap.lookup i.opcode = some command ∧ command i.fields = i := by
  cases i <;> exact ⟨_, rfl, rfl⟩

theorem decode_encode (i : Instr) : decode (encode i) = .ok i := by
  obtain ⟨hop, hf⟩ := Laws.fields_of_layout i.opcode i.fields
  obtain ⟨command, hl, hi⟩ := opcodeMap_lookup_opcode i
  simp only [decode, encode, hop, hf, hl, hi]

/-- A word decodes to a command exactly when it is that command's encoded word. -/
theorem decode_eq_ok_iff {w : CommandWord} {i : Instr} : decode w = .ok i ↔ encode i = w :=
  ⟨encode_of_decode_ok, fun h => h ▸ decode_encode i⟩

/-- Settles O2: the layout keeps the opcode and the fields, and the opcode map finds the command again. -/
theorem decodeOfEncode : Obligations.DecodeOfEncode := decode_encode

/-- Settles O3: the row that decodes a word has the word's opcode and takes all its fields. -/
theorem encodeOfDecode : Obligations.EncodeOfDecode := fun _ _ => encode_of_decode_ok

/-- Settles O1: each of the six words is the encoded word of its command. -/
theorem specWordsDecode : Obligations.SpecWordsDecode := by
  simp [Obligations.SpecWordsDecode, decode_eq_ok_iff, encode, layoutWord, Instr.opcode, Instr.fields]

/-! ## Undefined opcodes -/

/-- The keys of the opcode map are the 21 defined opcodes (rule R63). -/
theorem opcodeMap_keys : opcodeMap.map Prod.fst = definedOpcodes := rfl

theorem opcodeMap_lookup_isSome_iff (op : BitVec 8) : (opcodeMap.lookup op).isSome = true ↔ op ∈ definedOpcodes := by
  simp only [← opcodeMap_keys, List.lookup_isSome_iff, List.mem_map, beq_iff_eq, eq_comm (a := op)]

/-- A word with a defined opcode decodes, whatever its other fields are (rule R65). -/
theorem decode_of_mem_definedOpcodes {w : CommandWord} (h : opcodeField w ∈ definedOpcodes) : ∃ i, decode w = .ok i := by
  obtain ⟨command, hl⟩ := Option.isSome_iff_exists.1 ((opcodeMap_lookup_isSome_iff _).2 h)
  exact ⟨command (fieldsOf w), by simp only [decode, hl]⟩

/-- A word with any other opcode is refused by that opcode alone (rule R65). -/
theorem decode_of_not_mem_definedOpcodes {w : CommandWord} (h : opcodeField w ∉ definedOpcodes) :
    decode w = .error (.undefinedOpcode (opcodeField w)) := by
  have hl : opcodeMap.lookup (opcodeField w) = none := by
    rwa [← opcodeMap_lookup_isSome_iff, Option.not_isSome_iff_eq_none] at h
  simp only [decode, hl]

/-! ## The step on a command word -/

theorem takeCommand_of_ok {w : CommandWord} {i : Instr} (h : decode w = .ok i) (s : State) : takeCommand w s = exec i s := by
  simp only [takeCommand, h]

theorem takeCommand_of_error {w : CommandWord} {e : DecodeError} (h : decode w = .error e) (s : State) :
    takeCommand w s = raise s .opcode := by
  simp only [takeCommand, h]

/-- The step takes the command word at the head of the agenda (rules R49, R68). -/
theorem step_of_command {s : State} {w : CommandWord} {es : List Event} (h : s.agenda = .command w :: es) :
    step s = takeCommand w (s.setAgenda es) := by
  simp only [step, h, handle]

/-- Settles O6: the host port decodes the word and runs what it decodes to. -/
theorem stepRunsDecodedCommand : Obligations.StepRunsDecodedCommand := fun _ _ _ _ hs hd =>
  (step_of_command hs).trans (takeCommand_of_ok hd _)

/-- A whole command word placed as a number is that word at the head of the agenda. -/
theorem withFetchWord_toNat (s : State) (w : CommandWord) : s.withFetchWord 320 w.toNat = s.pushCommand w := by
  rw [State.withFetchWord, Nat.mod_eq_of_lt w.isLt, BitVec.ofNat_toNat, BitVec.setWidth_eq]

/-- Settles O7: the placed word is at the head of the agenda, decodes to the command, and leaves the agenda as it was. -/
theorem placedCommandRunsNext : Obligations.PlacedCommandRunsNext := by
  intro s i
  rw [withFetchWord_toNat]
  exact (step_of_command rfl).trans (takeCommand_of_ok (decode_encode i) s)

/-- `raise E_OPCODE` as the claims write it: sticky bit 0 and code `0x01` (rules R170, R171). -/
theorem Machine.State.fail_opcode (s : State) : s.fail .opcode = answeredError s 1 := rfl

/-- Settles O4: the decoder goes by the opcode alone, and a refused word raises `E_OPCODE`. -/
theorem undefinedOpcodesFail : Obligations.UndefinedOpcodesFail := by
  intro s w es hs
  refine ⟨fun hop => ?_, decode_of_mem_definedOpcodes⟩
  rw [step_of_command hs, takeCommand_of_error (decode_of_not_mem_definedOpcodes hop), raise, State.fail_opcode]
  rfl

/-! ## The canonical byte form -/

@[simp] theorem bytesBe_length (n v : Nat) : (bytesBe n v).length = n := by
  induction n with
  | zero => rfl
  | succ n ih => rw [bytesBe, List.length_cons, ih]

/-- One byte of a value stands for itself. -/
@[simp] theorem bytesBe_one (b : Byte) : bytesBe 1 b.toNat = [b] := by
  simp [bytesBe]

/-- What a value holds above its lowest `n` bytes is not in its `n`-byte form. -/
theorem bytesBe_add_mul (n k v : Nat) : bytesBe n (256 ^ n * k + v) = bytesBe n v := by
  induction n generalizing k with
  | zero => rfl
  | succ n ih =>
    have hbyte : BitVec.ofNat 8 (256 * k + v / 256 ^ n) = BitVec.ofNat 8 (v / 256 ^ n) :=
      BitVec.eq_of_toNat_eq (Nat.mul_add_mod ..)
    rw [bytesBe, bytesBe, pow_succ, mul_assoc, Nat.mul_add_div (by positivity), hbyte, ih]

/-- The bytes of a value in two parts, the high part first. -/
theorem bytesBe_add (m n a b : Nat) (hb : b < 256 ^ n) : bytesBe (m + n) (256 ^ n * a + b) = bytesBe m a ++ bytesBe n b := by
  induction m with
  | zero => rw [Nat.zero_add, bytesBe_add_mul, bytesBe, List.nil_append]
  | succ m ih =>
    have hdiv : (256 ^ n * a + b) / 256 ^ (m + n) = a / 256 ^ m := by
      rw [Nat.add_comm m, pow_add, ← Nat.div_div_eq_div_mul, Nat.mul_add_div (by positivity), Nat.div_eq_of_lt hb,
        Nat.add_zero]
    rw [Nat.succ_add, bytesBe, bytesBe, hdiv, ih, List.cons_append]

/-- `n` bytes are `8 n` bits. -/
theorem two_pow_eight_mul (n : Nat) : 2 ^ (8 * n) = 256 ^ n := pow_mul 2 8 n

/-- The bytes of a word in two parts, where the low part is whole bytes. -/
theorem bytesBe_toNat_append {m n c k l : Nat} (hc : c = m + n) (hl : l = 8 * n) (x : BitVec k) (y : BitVec l) :
    bytesBe c (x ++ y).toNat = bytesBe m x.toNat ++ bytesBe n y.toNat := by
  subst hc hl
  rw [BitVec.toNat_append, ← Nat.shiftLeft_add_eq_or_of_lt y.isLt, Nat.shiftLeft_eq, Nat.mul_comm, two_pow_eight_mul,
    bytesBe_add _ _ _ _ (two_pow_eight_mul n ▸ y.isLt)]

/-- A command word as bytes: opcode, `rsv`, `addr`, `data` (rules R60, R62). -/
theorem wordBytes_layoutWord (op : BitVec 8) (f : Fields) :
    wordBytes (layoutWord op f) = [op] ++ bytesBe 3 f.rsv.toNat ++ bytesBe 4 f.addr.toNat ++ bytesBe 32 f.data.toNat := by
  rw [wordBytes, layoutWord, bytesBe_toNat_append (m := 8) (n := 32) rfl rfl, bytesBe_toNat_append (m := 4) (n := 4) rfl rfl,
    bytesBe_toNat_append (m := 1) (n := 3) rfl rfl, bytesBe_one]

/-- A response word as bytes: code, six zero bytes, flags, `data` (rules R61, R62). -/
theorem wordBytes_responseWord (code flags : BitVec 8) (data : FixedWord) :
    wordBytes (responseWord code flags data) = [code, 0, 0, 0, 0, 0, 0, flags] ++ bytesBe 32 data.toNat := by
  rw [wordBytes, responseWord, bytesBe_toNat_append (m := 8) (n := 32) rfl rfl,
    bytesBe_toNat_append (m := 7) (n := 1) rfl rfl, bytesBe_toNat_append (m := 1) (n := 6) rfl rfl, bytesBe_one, bytesBe_one]
  rfl

/-- Reading the `n`-byte form of a value after other bytes shifts what they stand for up by `n` bytes. -/
theorem foldl_bytesBe (n v acc : Nat) :
    (bytesBe n v).foldl (fun u b => u * 256 + b.toNat) acc = acc * 256 ^ n + v % 256 ^ n := by
  induction n generalizing acc with
  | zero => simp [bytesBe, Nat.mod_one]
  | succ n ih =>
    rw [bytesBe, List.foldl_cons, ih, Nat.mod_pow_succ, BitVec.toNat_ofNat]
    ring

/-- The big-endian integer of the `n`-byte form is the value modulo `256^n` (rules R8, R62). -/
theorem intBe_bytesBe (n v : Nat) : intBe (bytesBe n v) = v % 256 ^ n := by
  rw [intBe, foldl_bytesBe, Nat.zero_mul, Nat.zero_add]

/-- A word is 40 bytes long (rule R62). -/
theorem wordBytes_length (w : BitVec 320) : (wordBytes w).length = 40 := bytesBe_length 40 w.toNat

/-- The 40 bytes of a word are read back as that word. -/
theorem intBe_wordBytes (w : BitVec 320) : intBe (wordBytes w) = w.toNat := by
  rw [wordBytes, intBe_bytesBe, ← two_pow_eight_mul, Nat.mod_eq_of_lt w.isLt]

theorem decodeBytes_wordBytes (w : CommandWord) : decodeBytes (wordBytes w) = decode w := by
  rw [decodeBytes, if_pos (wordBytes_length w), intBe_wordBytes, BitVec.ofNat_toNat, BitVec.setWidth_eq]

/-- Settles O5: the bytes of the two formats part by part, and the decoder on 40 bytes and on any other length. -/
theorem canonicalByteForm : Obligations.CanonicalByteForm :=
  ⟨wordBytes_layoutWord, wordBytes_responseWord, decodeBytes_wordBytes, fun _ h => if_neg h⟩

/-! ## One response per command -/

/-- The fields of a response word below its code (rule R61). -/
theorem Machine.responseWord_fields (code flags : BitVec 8) (data : FixedWord) :
    (responseWord code flags data).extractLsb' 264 48 = 0 ∧ (responseWord code flags data).extractLsb' 256 8 = flags ∧
      (responseWord code flags data).extractLsb' 0 256 = data := by
  simp only [responseWord, BitVec.extractLsb'_append_eq_ite]
  simp

/-- No code is above 7 (rule R171). -/
theorem Machine.ErrorCode.code_le (e : ErrorCode) : e.code.toNat ≤ 7 := by
  cases e <;> decide

/-- The answer `r` to a command, in the format of rule R61, is the one thing the port sends between `s` and `t`. -/
def AnsweredOnce (s t : State) : Prop :=
  ∃ r : ResponseWord, t.responses = s.responses ++ [r] ∧ r.extractLsb' 264 48 = 0 ∧ r.extractLsb' 256 8 = t.flagsByte ∧
    (r.extractLsb' 312 8).toNat ≤ 7 ∧ (r.extractLsb' 312 8 ≠ 0 → r.extractLsb' 0 256 = 0)

/-- A response word is a proper answer when it has the flags of the new state, a code of at most 7, and no data with an error. -/
theorem AnsweredOnce.of_responseWord {s t : State} {code : BitVec 8} {data : FixedWord}
    (h : t.responses = s.responses ++ [responseWord code t.flagsByte data]) (hcode : code.toNat ≤ 7)
    (hdata : code ≠ 0 → data = 0) : AnsweredOnce s t := by
  obtain ⟨hzero, hflags, hd⟩ := responseWord_fields code t.flagsByte data
  refine ⟨_, h, hzero, hflags, ?_, ?_⟩
  · rwa [responseWord_code]
  · rwa [responseWord_code, hd]

/-- A command that fails is answered with its code and data 0 (rule R170). -/
theorem AnsweredOnce.fail (s : State) (e : ErrorCode) : AnsweredOnce s (s.fail e) :=
  .of_responseWord (State.fail_responses s e) e.code_le fun _ => rfl

/-- A command that is carried out is answered once, when its effect sent nothing (rule R61). -/
theorem AnsweredOnce.respondOk {s s' : State} (h : s'.responses = s.responses) (d : FixedWord) :
    AnsweredOnce s (s'.respondOk d) :=
  .of_responseWord (h ▸ State.respondOk_responses s' d) (by decide) fun hcode => absurd rfl hcode

/-- The effect of a command leaves the two channels of the port alone (rule R68). -/
theorem Machine.Carried.channels {s s' : State} {i : Instr} {d : FixedWord} (h : Carried s i s' d) :
    s'.agenda = s.agenda ∧ s'.responses = s.responses := by
  cases h <;> exact ⟨rfl, rfl⟩

theorem publish_channels {n r t : FixedWord} {s s' : State} (h : publish n r t s = some s') :
    s'.agenda = s.agenda ∧ s'.responses = s.responses := by
  rcases publish_eq_some h with rfl | ⟨-, -, rfl⟩ | ⟨b, -, -, -, -, rfl⟩ <;> exact ⟨rfl, rfl⟩

/-- A lane step leaves the two channels of the port alone (rule R69). -/
theorem Machine.LaneEffect.channels {l : Nat} {s t : State} (h : LaneEffect l s t) :
    t.agenda = s.agenda ∧ t.responses = s.responses := by
  cases h with
  | publishes x n r t s' hp hx hs hn hr ht h =>
    obtain ⟨hagenda, hresponses⟩ := publish_channels h
    exact ⟨hagenda, hresponses⟩
  | none | goesOn | exits | ends | fetches | evaluates => exact ⟨rfl, rfl⟩

/-- An item of an execution puts nothing on the agenda. -/
theorem Machine.Handled.agenda_eq {s t : State} {e : Event} (h : Handled s e t) : t.agenda = s.agenda := by
  cases h with
  | carried i s' d hw h => exact h.channels.1
  | lane l t h => exact h.channels.1
  | fails | reset => rfl

/-- Only a command is answered (rules R68, R69, R190). -/
theorem Machine.Handled.responses_eq {s t : State} {e : Event} (h : Handled s e t) (he : ∀ w, e ≠ .command w) :
    t.responses = s.responses := by
  cases h with
  | fails w => exact absurd rfl (he w)
  | carried i => exact absurd rfl (he (encode i))
  | lane l t h => exact h.channels.2
  | reset => rfl

/-- Every command is answered once (rule R68). -/
theorem Machine.Handled.answeredOnce {s t : State} {w : CommandWord} (h : Handled s (.command w) t) : AnsweredOnce s t := by
  cases h with
  | fails w e => exact .fail s e
  | carried i s' d hw h => exact .respondOk h.channels.2 d

/-- Settles O40: a step takes one item, which is answered once when it is a command and not at all otherwise. -/
theorem oneResponsePerCommand : Obligations.OneResponsePerCommand := by
  intro s t e es he hstep
  have h : Handled (s.setAgenda es) e t := handle_cases (by simpa only [step, he] using hstep)
  exact ⟨h.agenda_eq, h.responses_eq, fun w hw => (hw ▸ h).answeredOnce⟩

end Sys2Proof
end

section
/-!
PROOFS. Control and load commands (spec/40_config_load.md rules R80 to R86), and the answer to every command that passes or fails
its checks (spec/60_exceptions.md rules R170 to R173).
-/

namespace Sys2Proof

open Sys2Proof.Machine Sys2Proof.Safety

/-! ## The common checks, command by command -/

/-- The operand field of a command, by the columns of rule R63. -/
def Instr.fieldUse (i : Instr) : FieldUse :=
  if i.usesAddr then .addr else if i.usesData then .data else .none

/-- The field check of each command is its well-formedness (rule R66). -/
theorem Instr.fieldUse_ok (i : Instr) : i.fieldUse.ok i.fields = i.wellFormed := by
  cases i <;> simp [Instr.fieldUse, Instr.usesAddr, Instr.usesData, Instr.wellFormed, FieldUse.ok]

/-! The permission of each group of commands in the words of the phase table (rule R64). -/

@[simp] theorem Machine.inAnyPhase_eq (p : Phase) : inAnyPhase p = true := by cases p <;> rfl

@[simp] theorem Machine.inLoading_eq (p : Phase) : inLoading p = decide (p = .loading) := by cases p <;> rfl

@[simp] theorem Machine.inArmedOrStopped_eq (p : Phase) : inArmedOrStopped p = decide (p = .armed ∨ p = .stopped) := by
  cases p <;> rfl

@[simp] theorem Machine.inArmed_eq (p : Phase) : inArmed p = decide (p = .armed) := by cases p <;> rfl

@[simp] theorem Machine.inSearching_eq (p : Phase) : inSearching p = decide (p = .searching) := by cases p <;> rfl

/-- Every command is its effect behind the checks of its operand fields and of its row of the phase table (rules R64, R66,
R173). -/
theorem exec_eq_checked (i : Instr) (s : State) :
    ∃ inPhase o, exec i s = checked i.fieldUse inPhase i.fields s o ∧ inPhase s.phase = permitted i s.phase := by
  cases i <;> exact ⟨_, _, rfl, by simp [permitted]⟩

/-! ## Commands that are carried out -/

/-- A well-formed command whose effect the rules give is carried out and answered: the converse of `exec_cases`. -/
theorem exec_of_carried {i : Instr} {s s' : State} {d : FixedWord} (hw : i.wellFormed = true) (h : Carried s i s' d) :
    exec i s = .next (answeredOk s' d) := by
  have hf : i.fieldUse.ok i.fields = true := i.fieldUse_ok.trans hw
  cases h with
  | nop | reset | clrErr | rdStatus | rdCursor => exact checked_pass hf (inAnyPhase_eq _) _
  | wrCommit f hp | wrTarget f hp | search f hp | halt f hp => exact checked_pass hf (by simp [hp]) _
  | wrTable f hp h | arm f hp h => exact (checked_pass hf (by simp [hp]) _).trans (if_neg h)
  | eval f c t e hp hc he ht =>
    exact (checked_pass hf (by simpa using hp) _).trans (by simp only [evalContext, hc, he, ht]; rfl)
  | rdConst f v h => exact (checked_pass hf (inAnyPhase_eq _) _).trans (by simp only [h]; rfl)
  | rdCommit f v hv h | rdTarget f v hv h | rdNonce f v hv h | rdResult f v hv h | rdBestNonce f v hv h
  | rdBestResult f v hv h =>
    exact (checked_pass hf (inAnyPhase_eq _) _).trans (by simp only [hv, h]; rfl)
  | rdTable f v hN hl h =>
    exact (checked_pass hf (inAnyPhase_eq _) _).trans (by simp only [hN.not_ge, hl.not_ge, h]; rfl)
  | rdIdx f v ha hv h =>
    exact (checked_pass hf (inAnyPhase_eq _) _).trans (by simp only [ha.not_ge, hv, h]; rfl)

/-! ## Commands that fail -/

/-- `E_FIELD` comes before everything else (rule R173). -/
theorem exec_answers_field {i : Instr} (hw : i.wellFormed = false) (s : State) : exec i s = .next (answeredError s 2) :=
  exec_of_not_wellFormed hw s

/-- `E_PHASE` comes next (rules R64, R173), for a command whose row of the phase table does not name the phase. -/
theorem exec_answers_phase {i : Instr} {s : State} (hw : i.wellFormed = true) (hp : permitted i s.phase = false) :
    exec i s = .next (answeredError s 3) := by
  obtain ⟨inPhase, o, he, h⟩ := exec_eq_checked i s
  rw [he]
  exact checked_phase (i.fieldUse_ok.trans hw) (h.trans hp) o

/-- `E_FULL`: the table has no room for another word (rule R83). -/
theorem exec_wrTable_full {f : Fields} {s : State} (hw : (Instr.wrTable f).wellFormed = true) (hp : s.phase = .loading)
    (hN : s.loadPtr = s.cfg.N) : exec (.wrTable f) s = .next (answeredError s 5) :=
  (checked_pass ((Instr.fieldUse_ok _).trans hw) (by simp [hp]) _).trans (if_pos hN)

/-- `E_NOTREADY`: the table is not full, or a register is not written (rule R86). -/
theorem exec_arm_notReady {f : Fields} {s : State} (hw : (Instr.arm f).wellFormed = true) (hp : s.phase = .loading)
    (h : s.loadPtr < s.cfg.N ∨ s.cValid = false ∨ s.tValid = false) : exec (.arm f) s = .next (answeredError s 6) :=
  (checked_pass ((Instr.fieldUse_ok _).trans hw) (by simp [hp]) _).trans (if_pos h)

/-! ## Control commands -/

/-- Settles O12: `NOP` has no effect of its own. -/
theorem nopAnswersOnly : Obligations.NopAnswersOnly := fun f s =>
  ⟨fun hw => exec_of_carried hw (.nop f), fun hw => exec_answers_field hw s⟩

/-- The flags byte of a block that was just reset is 0 (rule R81). -/
@[simp] theorem Machine.State.resetBlock_flagsByte (s : State) : s.resetBlock.flagsByte = 0 := by
  simp [State.flagsByte, Phase.bits]

/-- The answer to `RESET` carries the flags of the reset state. -/
theorem answeredOk_resetBlock (s : State) : answeredOk s.resetBlock 0 = { State.resetOf s.cfg with
    agenda := s.agenda, responses := s.responses ++ [responseWord 0x00 0x00 0] } := by
  rw [answeredOk, State.resetBlock_flagsByte]
  rfl

/-- Settles O13: the command and the reset input both end in `resetBlock`, which keeps the constants and the two channels. -/
theorem resetRestoresResetState : Obligations.ResetRestoresResetState := by
  refine ⟨fun f s => ⟨fun hw => ?_, fun hw => exec_answers_field hw s⟩, fun s es hs => ?_⟩
  · rw [exec_of_carried hw (.reset f), answeredOk_resetBlock]
  · simp only [step, hs, handle]
    rfl

/-- Settles O14: the effect of `CLR_ERR` is `ERR <- 0`, and a failing one does not reach it. -/
theorem clrErrClearsAllStickyBits : Obligations.ClrErrClearsAllStickyBits := fun f s =>
  ⟨fun hw => exec_of_carried hw (.clrErr f), fun hw => exec_answers_field hw s⟩

/-! ## Load commands -/

/-- Settles O15: the new table is the old one with `data` written at `LOAD_PTR`. -/
theorem wrTableAppendsWord : Obligations.WrTableAppendsWord := fun f s =>
  ⟨fun hw hp hN => ⟨Memory.write s.table s.loadPtr f.data, fun a => Memory.read_write s.table s.loadPtr a f.data,
      exec_of_carried hw (.wrTable f hp hN)⟩,
    fun hw => exec_answers_field hw s,
    fun hw hp => exec_answers_phase hw (decide_eq_false hp),
    exec_wrTable_full⟩

/-- Settles O16: each command writes its register and its valid bit, and the checks come before that. -/
theorem wrCommitAndWrTargetWriteTheirRegister : Obligations.WrCommitAndWrTargetWriteTheirRegister := fun f s =>
  ⟨fun hw hp => exec_of_carried hw (.wrCommit f hp), fun hw => exec_answers_field hw s,
    fun hw hp => exec_answers_phase hw (decide_eq_false hp),
    fun hw hp => exec_of_carried hw (.wrTarget f hp), fun hw => exec_answers_field hw s,
    fun hw hp => exec_answers_phase hw (decide_eq_false hp)⟩

/-- Settles O17: with a full table and both valid bits set nothing stands in the way of `ARMED`. -/
theorem armFreezesACompleteLoad : Obligations.ArmFreezesACompleteLoad := by
  intro f s
  refine ⟨fun hw hp hN hc ht => ?_, fun hw => exec_answers_field hw s,
    fun hw hp => exec_answers_phase hw (decide_eq_false hp), exec_arm_notReady⟩
  have hready : ¬ (s.loadPtr < s.cfg.N ∨ s.cValid = false ∨ s.tValid = false) := by simp [hN, hc, ht]
  exact exec_of_carried hw (.arm f hp hready)

/-! ## The commitment 0 -/

/-- Every evaluation point of the commitment 0 is 0 (rule R102). -/
theorem evalPoint_zero (p : FixedWord) : evalPoint 0 p = 0 := BitVec.zero_umod

/-- With the commitment 0 all ten rounds select one address (rule R84). -/
theorem roundIndices_zero (c : Config) (n : FixedWord) :
    roundIndices c 0 n = List.replicate 10 (tableIndex c (horner 0 (coefficients c n))) := by
  simp only [roundIndices, evalPoint_zero, List.map_const', c.legal.1]

/-- Two rounds in a row at one address cancel: the accumulator is what it was (rule R105). -/
theorem foldTable_pair {T : Memory} {acc r : FixedWord} {i : Nat} {is : List Nat}
    (h : foldTable T acc (i :: i :: is) = some r) : foldTable T acc is = some r := by
  cases hw : Memory.read T i with
  | none => simp [foldTable, hw] at h
  | some w => simpa [foldTable, hw, xor256, BitVec.xor_assoc] using h

/-- An even number of rounds at one address leaves the accumulator as it is. -/
theorem foldTable_replicate_even {T : Memory} {acc r : FixedWord} {i : Nat} (k : Nat)
    (h : foldTable T acc (List.replicate (2 * k) i) = some r) : r = acc := by
  induction k with
  | zero => exact (Option.some.inj h).symm
  | succ k ih => exact ih (foldTable_pair h)

/-- Settles O38: the ten rounds read one word, and an even number of equal words cancels. -/
theorem zeroCommitmentGivesZero : Obligations.ZeroCommitmentGivesZero := by
  intro cfg T n e h
  obtain ⟨hfold, -⟩ := evaluate_eq_some.1 h
  rw [roundIndices_zero] at hfold
  exact foldTable_replicate_even 5 hfold

end Sys2Proof
end

section
/-!
PROOFS. The work function (spec/41_evaluate.md rules R100 to R110) and the command `EVAL` (rule R108).
-/

namespace Sys2Proof

open Sys2Proof.Machine Sys2Proof.Safety

/-! ## The constants -/

theorem Config.two_le_of_mem_P {cfg : Config} {p : FixedWord} (h : p ∈ cfg.P) : 2 ≤ p.toNat := by
  obtain ⟨-, -, hP, -⟩ := Config.legal_iff.1 cfg.legal
  exact hP p h

theorem Config.two_le_of_mem_Q {cfg : Config} {q : FixedWord} (h : q ∈ cfg.Q) : 2 ≤ q.toNat := by
  obtain ⟨-, -, -, hQ, -⟩ := Config.legal_iff.1 cfg.legal
  exact hQ q h

theorem Config.N_le (cfg : Config) : cfg.N ≤ 2 ^ 32 := by
  obtain ⟨-, -, -, -, -, hN, -⟩ := Config.legal_iff.1 cfg.legal
  exact hN

/-! ## Stage COEF -/

/-- The `+ 1` of one coefficient does not wrap, because a remainder is below its modulus (rule R101). -/
theorem coefficient_toNat {q : FixedWord} (hq : 2 ≤ q.toNat) (n : FixedWord) :
    (add256 (mod256 n q) 1).toNat = n.toNat % q.toNat + 1 := by
  have hmod : n.toNat % q.toNat < q.toNat := Nat.mod_lt _ (by omega)
  have hlt : n.toNat % q.toNat + 1 < 2 ^ 256 := by have := q.isLt; omega
  rw [add256, mod256, BitVec.toNat_add, BitVec.toNat_umod]
  exact Nat.mod_eq_of_lt hlt

theorem coefficient_toNat_le {q : FixedWord} (hq : 2 ≤ q.toNat) (n : FixedWord) :
    (add256 (mod256 n q) 1).toNat ≤ q.toNat := by
  rw [coefficient_toNat hq]
  exact Nat.mod_lt _ (by omega)

@[simp] theorem coefficients_length (cfg : Config) (n : FixedWord) : (coefficients cfg n).length = 5 := by
  obtain ⟨-, hQ, -⟩ := cfg.legal
  rw [coefficients, List.length_map, hQ]

/-- Settles O34: every coefficient belongs to a modulus of at least 2. -/
theorem coefficientsNeverWrap : Obligations.CoefficientsNeverWrap := by
  refine fun cfg n => ⟨coefficients_length cfg n, fun j v q hv hq => ?_⟩
  have hq2 : 2 ≤ q.toNat := Config.two_le_of_mem_Q (List.mem_of_getElem? hq)
  obtain rfl : add256 (mod256 n q) 1 = v := by simpa [coefficients, hq] using hv
  have hval := coefficient_toNat hq2 n
  exact ⟨hval, by omega, coefficient_toNat_le hq2 n⟩

/-! ## Stage HORNER

The integer polynomial with coefficients `cs`, constant term first, is the library's `Nat.ofDigits x cs`. -/

/-- One step of Horner's scheme (rule R103); the first one starts from 0. -/
theorem horner_cons (x c : FixedWord) (cs : List FixedWord) : horner x (c :: cs) = horner x cs * x + c := by
  cases cs with
  | nil => simp [horner]
  | cons c' cs => rfl

/-- Horner's scheme computes the integer polynomial modulo `2^256` (rule R103). -/
theorem horner_toNat (x : FixedWord) (cs : List FixedWord) :
    (horner x cs).toNat = Nat.ofDigits x.toNat (cs.map BitVec.toNat) % 2 ^ 256 := by
  induction cs with
  | nil => rfl
  | cons c cs ih =>
    rw [horner_cons, BitVec.toNat_add, BitVec.toNat_mul, ih, Nat.mod_mul_mod, Nat.mod_add_mod, List.map_cons,
      Nat.ofDigits_cons, Nat.add_comm, Nat.mul_comm]

theorem ofDigits_five (x c0 c1 c2 c3 c4 : Nat) :
    Nat.ofDigits x [c0, c1, c2, c3, c4] = c4 * x ^ 4 + c3 * x ^ 3 + c2 * x ^ 2 + c1 * x + c0 := by
  simp only [Nat.ofDigits_cons, Nat.ofDigits_nil]
  ring

/-- Coefficients at most `B` and a point below `B` keep a polynomial of `k` coefficients within `B^k` (rule R109). -/
theorem ofDigits_le_pow {x B : Nat} (hx : x < B) {cs : List Nat} (hcs : ∀ c ∈ cs, c ≤ B) :
    Nat.ofDigits x cs ≤ B ^ cs.length := by
  induction cs with
  | nil => exact Nat.zero_le _
  | cons c cs ih =>
    obtain ⟨hc, hcs⟩ := List.forall_mem_cons.1 hcs
    cases cs with
    | nil => simpa using hc
    | cons c' cs =>
      have hpow : B ≤ B ^ (c' :: cs).length := Nat.le_self_pow (by simp) B
      calc Nat.ofDigits x (c :: c' :: cs)
          = c + x * Nat.ofDigits x (c' :: cs) := Nat.ofDigits_cons ..
        _ ≤ B ^ (c' :: cs).length + x * B ^ (c' :: cs).length :=
            Nat.add_le_add (hc.trans hpow) (Nat.mul_le_mul_left x (ih hcs))
        _ = (x + 1) * B ^ (c' :: cs).length := by ring
        _ ≤ B * B ^ (c' :: cs).length := Nat.mul_le_mul_right _ hx
        _ = B ^ (c :: c' :: cs).length := (Nat.pow_succ' ..).symm

/-- Settles O35: a capacity `2^m` is at most `2^32`, so it divides the modulus `2^256` of Horner's scheme. -/
theorem powerOfTwoCapacityIgnoresTheWrap : Obligations.PowerOfTwoCapacityIgnoresTheWrap := by
  refine fun x c0 c1 c2 c3 c4 => ⟨?_, fun cfg m hN => ?_⟩
  · simp only [horner, add256, mul256]
    ring
  · have hle : 2 ^ m ≤ 2 ^ 32 := hN ▸ cfg.N_le
    have hm : m ≤ 32 := (Nat.pow_le_pow_iff_right (by decide)).1 hle
    have hdvd : 2 ^ m ∣ 2 ^ 256 := Nat.pow_dvd_pow 2 (by omega)
    rw [tableIndex, hN, horner_toNat, Nat.mod_mod_of_dvd _ hdvd]
    simp only [List.map_cons, List.map_nil, ofDigits_five]

/-- Settles O36: coefficients at most `B` and a point below `B` keep the polynomial within `B^5 <= 2^255`. -/
theorem smallModuliNeverWrap : Obligations.SmallModuliNeverWrap := by
  intro cfg B c n p k0 k1 k2 k3 k4 hB hB51 hp hcoef
  have hx : (evalPoint c p).toNat < B := by
    have hp2 := Config.two_le_of_mem_P hp
    exact (Nat.mod_lt _ (by omega)).trans_le (hB p (List.mem_append_left _ hp))
  have hle : ∀ k ∈ (coefficients cfg n).map BitVec.toNat, k ≤ B := by
    simp only [coefficients, List.map_map, List.forall_mem_map]
    exact fun q hq => (coefficient_toNat_le (Config.two_le_of_mem_Q hq) n).trans (hB q (List.mem_append_right _ hq))
  have hbound := ofDigits_le_pow hx hle
  rw [List.length_map, coefficients_length] at hbound
  have hnowrap : B ^ 5 < 2 ^ 256 := (Nat.pow_le_pow_left hB51 5).trans_lt (by decide)
  rw [horner_toNat, Nat.mod_eq_of_lt (hbound.trans_lt hnowrap)]
  refine ⟨?_, hbound⟩
  rw [hcoef]
  exact ofDigits_five ..

/-! ## Stage FOLD and the whole function -/

/-- One round of the fold (rule R105). -/
theorem foldTable_cons (T : Memory) (acc : FixedWord) (i : Nat) (is : List Nat) :
    foldTable T acc (i :: is) = (Memory.read T i).bind fun w => foldTable T (acc ^^^ w) is := by
  cases h : Memory.read T i <;> simp [foldTable, h, xor256]

/-- Over words that hold values the fold is the exclusive or of them all. -/
theorem foldTable_eq_foldl {T : Memory} {w : Nat → FixedWord} {is : List Nat}
    (h : ∀ i ∈ is, Memory.read T i = some (w i)) (acc : FixedWord) :
    foldTable T acc is = some (is.foldl (fun acc i => acc ^^^ w i) acc) := by
  induction is generalizing acc with
  | nil => rfl
  | cons i is ih =>
    obtain ⟨hi, his⟩ := List.forall_mem_cons.1 h
    rw [foldTable_cons, hi]
    exact ih his _

/-- Settles O37, along the swaps that make up a permutation: two neighbouring rounds commute because XOR does. -/
theorem foldOrderIsIrrelevant : Obligations.FoldOrderIsIrrelevant := by
  intro T acc is js hperm
  induction hperm generalizing acc with
  | nil => rfl
  | cons i _ ih => simp only [foldTable_cons, ih]
  | swap i j is =>
    have hxor (a b : FixedWord) : acc ^^^ a ^^^ b = acc ^^^ b ^^^ a := by
      rw [BitVec.xor_assoc, BitVec.xor_comm a b, BitVec.xor_assoc]
    simp only [foldTable_cons]
    rw [Option.bind_comm]
    simp only [hxor]
  | trans _ _ ih ih' => exact (ih acc).trans (ih' acc)

/-- Settles O33: the indices are legal addresses, so every word the fold reads holds a value. -/
theorem evaluateIsTheFoldedWorkFunction : Obligations.EvaluateIsTheFoldedWorkFunction := by
  intro cfg T w c n q0 q1 q2 q3 q4 hQ hT index
  have hindex : roundIndices cfg c n = cfg.P.map index := by
    simp only [roundIndices, coefficients, hQ]
    rfl
  have hread : ∀ i ∈ cfg.P.map index, Memory.read T i = some (w i) := fun i hi =>
    hT i (roundIndices_lt (hindex ▸ hi))
  refine evaluate_eq_some.2 ⟨?_, ?_⟩ <;> rw [hindex]
  exact foldTable_eq_foldl hread c

/-! ## The command `EVAL` -/

/-- Settles O18: with values in `COMMIT`, `TARGET` and the table, `EVAL` is carried out; its checks come before that. -/
theorem evalWritesHostContext : Obligations.EvalWritesHostContext := fun f s =>
  ⟨fun hw hp c t e hc ht he => exec_of_carried hw (.eval f c t e hp hc he ht),
    fun hw => exec_answers_field hw s,
    fun hw hp => exec_answers_phase hw (by rcases hp with hp | hp <;> simp [permitted, hp])⟩

/-- The accepted pair is a nonce with its own evaluation, and a hit (rule R28 item 6). -/
theorem Safety.Inv.accepted {s : State} (h : Inv s) {n r : FixedWord} (hn : s.bestNonce = some n)
    (hr : s.bestResult = some r) :
    ∃ c t e, s.commit = some c ∧ s.target = some t ∧ evaluate s.cfg s.table c n = some e ∧ e.result = r ∧
      r.toNat ≤ t.toNat := by
  have hvalid : s.bestValid = true := by rw [← h.bestHolds.1, hn, Option.isSome_some]
  obtain ⟨-, t, n', r', ht, hn', hr', hle, c, e, hc, he, hres⟩ := h.best hvalid
  cases hn.symm.trans hn'
  cases hr.symm.trans hr'
  exact ⟨c, t, e, hc, ht, he, hres, hle⟩

/-- Settles O57: `EVAL` repeats the evaluation that the accepted pair came from. -/
theorem evalVerifiesTheProof : Obligations.EvalVerifiesTheProof := by
  intro s n r h hp hn hr
  obtain ⟨c, t, e, hc, ht, he, rfl, hle⟩ := h.accepted hn hr
  have hrun := exec_of_carried (i := .eval ⟨0, 0, n⟩) rfl (.eval _ c t e (.inr hp) hc he ht)
  exact ⟨_, hrun, rfl, rfl, rfl, decide_eq_true hle, rfl⟩

end Sys2Proof
end

section
/-!
PROOFS. The read commands (spec/42_readback.md rules R120 to R130), and the errors of the table of rule R172 that a command finds
for itself.
-/

namespace Sys2Proof

open Sys2Proof.Machine Sys2Proof.Safety

/-! ## The `CONST` space -/

/-- The space has 19 cells (rule R121). -/
@[simp] theorem Machine.constSpace_length (c : Config) : (constSpace c).length = 19 := by
  obtain ⟨hP, hQ, -⟩ := c.legal
  simp [constSpace, hP, hQ]

/-- Cells 0 to 9 are the folding moduli. -/
theorem Machine.constSpace_foldingModulus {c : Config} {a : Nat} {p : FixedWord} (h : c.P[a]? = some p) :
    (constSpace c)[a]? = some p := by
  obtain ⟨hlt, -⟩ := List.getElem?_eq_some_iff.1 h
  rw [constSpace, List.append_assoc, List.getElem?_append_left hlt, h]

/-- Cells 10 to 14 are the coefficient moduli. -/
theorem Machine.constSpace_coefficientModulus {c : Config} {a : Nat} {q : FixedWord} (ha : 10 ≤ a)
    (h : c.Q[a - 10]? = some q) : (constSpace c)[a]? = some q := by
  obtain ⟨hP, -⟩ := c.legal
  obtain ⟨hlt, -⟩ := List.getElem?_eq_some_iff.1 h
  rw [constSpace, List.append_assoc, List.getElem?_append_right (by omega), hP, List.getElem?_append_left hlt, h]

/-- Cells 15 to 18 are the four single constants. -/
theorem Machine.constSpace_scalar (c : Config) (k : Nat) :
    (constSpace c)[15 + k]? = [BitVec.ofNat 256 c.N, BitVec.ofNat 256 c.W, c.cursorInit, Config.version][k]? := by
  obtain ⟨hP, hQ, -⟩ := c.legal
  have hlen : (c.P ++ c.Q).length = 15 := by simp [hP, hQ]
  rw [constSpace, List.getElem?_append_right (by omega), hlen, Nat.add_sub_cancel_left]

/-! ## A command's own error -/

/-- The answer of rule R170 in the words of the claims. -/
theorem Machine.raise_eq_answeredError (s : State) (e : ErrorCode) :
    raise s e = .next (answeredError s e.code.toNat) := by
  cases e <;> rfl

/-- One check of a command against its row of the table of rule R172: the check itself, or what comes after it. -/
theorem Machine.check_answers {s : State} {code : Nat} {c : Prop} [Decidable c] (e : ErrorCode) {rest : Option Nat}
    {o : Host.Outcome State Fault Refusal} (hrest : rest = some code → o = .next (answeredError s code))
    (h : (if c then some e.code.toNat else rest) = some code) :
    (if c then raise s e else o) = .next (answeredError s code) := by
  split at h
  · cases h
    rw [if_pos ‹c›, raise_eq_answeredError]
  · rw [if_neg ‹¬ c›, hrest h]

/-- The last check of a command against its row of the table of rule R172: nothing comes after it. -/
theorem Machine.lastCheck_answers {s : State} {code : Nat} {c : Prop} [Decidable c] (e : ErrorCode)
    {o : Host.Outcome State Fault Refusal} (h : (if c then some e.code.toNat else none) = some code) :
    (if c then raise s e else o) = .next (answeredError s code) :=
  check_answers e (Option.some_ne_none code).symm.elim h

/-- A well-formed, permitted command fails with its own error of rule R172, the address check first (rule R173). -/
theorem exec_answers_ownError {i : Instr} {s : State} {code : Nat} (hw : i.wellFormed = true)
    (hp : permitted i s.phase = true) (h : ownError i s = some code) : exec i s = .next (answeredError s code) := by
  have hf : i.fieldUse.ok i.fields = true := i.fieldUse_ok.trans hw
  cases i with
  | nop | reset | clrErr | wrCommit | wrTarget | eval | search | halt | rdStatus | rdCursor => cases h
  | wrTable f => exact (checked_pass hf ((inLoading_eq _).trans hp) _).trans (lastCheck_answers .full h)
  | arm f => exact (checked_pass hf ((inLoading_eq _).trans hp) _).trans (lastCheck_answers .notReady h)
  | rdCommit f | rdTarget f | rdNonce f | rdResult f | rdBestNonce f | rdBestResult f =>
    exact (checked_pass hf (inAnyPhase_eq _) _).trans (lastCheck_answers .noData h)
  | rdTable f | rdIdx f =>
    exact (checked_pass hf (inAnyPhase_eq _) _).trans (check_answers .addr (lastCheck_answers .noData) h)
  | rdConst f =>
    refine (checked_pass hf (inAnyPhase_eq _) _).trans ?_
    have hbeyond : 19 ≤ f.addr.toNat := by
      by_contra hlt
      simp [ownError, hlt] at h
    cases (if_pos hbeyond).symm.trans h
    simp only [List.getElem?_eq_none ((constSpace_length s.cfg).trans_le hbeyond)]
    rfl

/-! ## Read commands -/

/-- Settles O21: the two reads have no check of their own. -/
theorem rdStatusAndRdCursorAnswer : Obligations.RdStatusAndRdCursorAnswer := fun f s =>
  ⟨fun hw => exec_of_carried hw (.rdStatus f), fun hw => exec_answers_field hw s,
    fun hw => exec_of_carried hw (.rdCursor f), fun hw => exec_answers_field hw s⟩

/-- Settles O23, range by range of the `CONST` space. -/
theorem rdConstReadsTheConstant : Obligations.RdConstReadsTheConstant := by
  intro f s
  refine ⟨fun hw => exec_answers_field hw s, fun hw => ?_⟩
  have hread : ∀ {v}, (constSpace s.cfg)[f.addr.toNat]? = some v → exec (.rdConst f) s = .next (answeredOk s v) :=
    fun h => exec_of_carried hw (.rdConst f _ h)
  refine ⟨fun p _ h => hread (constSpace_foldingModulus h), fun q ha _ h => hread (constSpace_coefficientModulus ha h),
    fun ha => hread ?_, fun ha => hread ?_, fun ha => hread ?_, fun ha => hread ?_,
    fun ha => exec_answers_ownError hw rfl (if_pos ha)⟩ <;> rw [ha]
  exacts [constSpace_scalar _ 0, constSpace_scalar _ 1, constSpace_scalar _ 2, constSpace_scalar _ 3]

/-- Settles O24: the valid bit of each register decides between its value and `E_NODATA`. -/
theorem rdCommitAndRdTargetAnswer : Obligations.RdCommitAndRdTargetAnswer := fun f s =>
  ⟨fun hw hv v h => exec_of_carried hw (.rdCommit f v hv h), fun hw hv => exec_answers_ownError hw rfl (if_pos hv),
    fun hw => exec_answers_field hw s,
    fun hw hv v h => exec_of_carried hw (.rdTarget f v hv h), fun hw hv => exec_answers_ownError hw rfl (if_pos hv),
    fun hw => exec_answers_field hw s⟩

/-- Settles O25: the address is held against the capacity first and against `LOAD_PTR` second. -/
theorem rdTableReadsOneWord : Obligations.RdTableReadsOneWord := fun f s =>
  ⟨fun hw hN hl v h => exec_of_carried hw (.rdTable f v hN hl h), fun hw => exec_answers_field hw s,
    fun hw hN => exec_answers_ownError hw rfl (if_pos hN),
    fun hw hN hl => exec_answers_ownError hw rfl ((if_neg hN.not_ge).trans (if_pos hl))⟩

/-- Settles O26: `DONE` decides between the host context and `E_NODATA`. -/
theorem rdNonceAndRdResultAnswer : Obligations.RdNonceAndRdResultAnswer := fun f s =>
  ⟨fun hw hv v h => exec_of_carried hw (.rdNonce f v hv h), fun hw hv => exec_answers_ownError hw rfl (if_pos hv),
    fun hw => exec_answers_field hw s,
    fun hw hv v h => exec_of_carried hw (.rdResult f v hv h), fun hw hv => exec_answers_ownError hw rfl (if_pos hv),
    fun hw => exec_answers_field hw s⟩

/-- A register of the trace that holds an index is read as that number (rules R40, R127). -/
theorem Machine.State.readIdx_eq_some {s : State} {k : Nat} {v : IndexWord} (h : s.idx[k]? = some (some v)) :
    s.readIdx k = some (BitVec.ofNat 256 v.toNat) := by
  rw [State.readIdx, h, BitVec.ofNat_toNat]

/-- Settles O27: the address is checked first and `DONE` second. -/
theorem rdIdxReadsTheTrace : Obligations.RdIdxReadsTheTrace := fun f s =>
  ⟨fun hw ha hv _ h => exec_of_carried hw (.rdIdx f _ ha hv (State.readIdx_eq_some h)),
    fun hw => exec_answers_field hw s,
    fun hw ha => exec_answers_ownError hw rfl (if_pos ha),
    fun hw ha hv => exec_answers_ownError hw rfl ((if_neg ha.not_ge).trans (if_pos hv))⟩

/-- Settles O28: `BEST_VALID` decides between the accepted proof and `E_NODATA`. -/
theorem rdBestAnswersTheProof : Obligations.RdBestAnswersTheProof := fun f s =>
  ⟨fun hw hv v h => exec_of_carried hw (.rdBestNonce f v hv h), fun hw hv => exec_answers_ownError hw rfl (if_pos hv),
    fun hw => exec_answers_field hw s,
    fun hw hv v h => exec_of_carried hw (.rdBestResult f v hv h), fun hw hv => exec_answers_ownError hw rfl (if_pos hv),
    fun hw => exec_answers_field hw s⟩

end Sys2Proof
end

section
/-!
PROOFS. The search commands and the lane steps, one by one (spec/43_search.md rules R140 to R146).
-/

namespace Sys2Proof

open Sys2Proof.Machine Sys2Proof.Safety

/-! ## What a lane step does -/

/-- A lane whose step is not enabled stays as it is (rule R146). -/
theorem laneStep_of_disabled {l : Nat} {s : State} (h : Disabled l s) : laneStep l s = .next s := by
  unfold laneStep
  split
  case isFalse => rfl
  case isTrue hp =>
    split
    · rfl
    · rename_i x hx
      rcases h with h | h
      · exact absurd hp h
      · rcases h x hx with hs | hs <;> rw [hs]

/-- A lane takes the step that `LaneEffect` describes: the converse of `laneStep_cases`. -/
theorem Machine.LaneEffect.laneStep_eq {l : Nat} {s t : State} (h : LaneEffect l s t) : laneStep l s = .next t := by
  cases h with
  | none h => exact laneStep_of_disabled h
  | goesOn x hp hx hs h => simp [laneStep, laneCheck, hp, hx, hs, h]
  | exits x hp hx hs h ha => simp [laneStep, laneCheck, hp, hx, hs, h, ha]
  | ends x hp hx hs h ha => simp [laneStep, laneCheck, hp, hx, hs, h, ha]
  | fetches x hp hx hs => simp [laneStep, laneFetch, add256, hp, hx, hs]
  | evaluates x c n e hp hx hs hc hn he => simp [laneStep, laneEval, hp, hx, hs, hc, hn, he]
  | publishes x n r t s' hp hx hs hn hr ht h => simp [laneStep, lanePublish, hp, hx, hs, hn, hr, ht, h]

/-- The step that takes a lane's choice from the agenda (rules R49, R147). -/
theorem step_of_laneEffect {l : Nat} {s t : State} {es : List Event} (ha : s.agenda = .lane l :: es)
    (h : LaneEffect l (s.setAgenda es) t) : step s = .next t := by
  unfold step
  rw [ha]
  exact h.laneStep_eq

/-- Settles O8: an empty agenda, and the choice of a disabled lane. -/
theorem nothingEnabledChangesNothing : Obligations.NothingEnabledChangesNothing := by
  intro s
  refine ⟨fun h => by rw [step, h], fun l es ha h => step_of_laneEffect ha (.none ?_)⟩
  rcases h with h | h | h | h
  · exact .inl h
  all_goals
    refine .inr fun x hx => ?_
    rw [State.setAgenda_lanes] at hx
    simp_all

/-! ## The search commands -/

/-- Settles O19: the effect of `SEARCH` is `startRun`, behind the checks of fields and phase. -/
theorem searchStartsEveryLane : Obligations.SearchStartsEveryLane := fun f s =>
  ⟨fun hw hp => exec_of_carried hw (.search f hp), fun hw => exec_answers_field hw s,
    fun hw hp => exec_answers_phase hw (decide_eq_false hp)⟩

/-- Settles O20: the effect of `HALT` is the stop flag, behind the same checks. -/
theorem haltSetsStopOnly : Obligations.HaltSetsStopOnly := fun f s =>
  ⟨fun hw hp => exec_of_carried hw (.halt f hp), fun hw => exec_answers_field hw s,
    fun hw hp => exec_answers_phase hw (decide_eq_false hp)⟩

/-! ## The lane steps -/

/-- A lane of the file after one lane has changed: the new one, or another one as it was. -/
theorem lane_of_set {ls : List Lane} {l m : Nat} {y z : Lane} (h : (ls.set l y)[m]? = some z) :
    (m = l ∧ z = y) ∨ (m ≠ l ∧ ls[m]? = some z) := by
  rw [List.getElem?_set] at h
  split at h
  · split at h <;> cases h
    exact .inl ⟨‹l = m›.symm, rfl⟩
  · exact .inr ⟨Ne.symm ‹_›, h⟩

/-- After one lane has exited, all have exactly when every other one has (rule R142). -/
theorem allExited_set_iff {ls : List Lane} {l : Nat} {y : Lane} (hy : y.state = .exited) :
    allExited (ls.set l y) = true ↔ ∀ m z, m ≠ l → ls[m]? = some z → z.state = .exited := by
  rw [allExited_iff]
  constructor
  · intro h m z hm hz
    exact h z (List.mem_of_getElem? (i := m) (by rw [List.getElem?_set_ne hm.symm, hz]))
  · intro h x hx
    obtain ⟨m, hm⟩ := List.mem_iff_getElem?.1 hx
    rcases lane_of_set hm with ⟨-, rfl⟩ | ⟨hne, hm⟩
    exacts [hy, h m x hne hm]

/-- Settles O29: the three outcomes of `L_CHECK`. -/
theorem laneCheckTestsStop : Obligations.LaneCheckTestsStop := by
  intro s l x es ha hp hx hs
  refine ⟨fun hstop => step_of_laneEffect ha (.goesOn x hp hx hs hstop),
    fun hstop ⟨m, y, hm, hy, hne⟩ => step_of_laneEffect ha (.exits x hp hx hs hstop ?_),
    fun hstop hall => step_of_laneEffect ha (.ends x hp hx hs hstop ((allExited_set_iff rfl).2 hall))⟩
  exact eq_false_of_ne_true fun hall => hne ((allExited_set_iff rfl).1 hall m y hm hy)

/-- Settles O30: `L_FETCH` adds one to the cursor modulo `2^256`. -/
theorem laneFetchDrawsTheCursor : Obligations.LaneFetchDrawsTheCursor := by
  intro s l x es ha hp hx hs
  have hcursor : BitVec.ofNat 256 ((s.cursor.toNat + 1) % 2 ^ 256) = s.cursor + 1 :=
    BitVec.eq_of_toNat_eq (by simp)
  rw [hcursor]
  exact step_of_laneEffect ha (.fetches x hp hx hs)

/-- Settles O31: `L_EVAL` on a lane that has its operands. -/
theorem laneEvalComputesTheResult : Obligations.LaneEvalComputesTheResult :=
  fun _ _ x _ c n e ha hp hx hs hc hn he => step_of_laneEffect ha (.evaluates x c n e hp hx hs hc hn he)

/-! The outcomes of the critical section of `L_PUBLISH` (rule R145). -/

section Publish
variable {n r t b : FixedWord} {s : State}

theorem publish_of_miss (h : t.toNat < r.toNat) : publish n r t s = some s := by
  simp [publish, leq, h]

theorem publish_of_first (h : r.toNat ≤ t.toNat) (hv : s.bestValid = false) :
    publish n r t s = some ((s.setBest n r).setStop true) := by
  simp [publish, leq, h, hv]

theorem publish_of_smaller (h : r.toNat ≤ t.toNat) (hv : s.bestValid = true) (hb : s.bestResult = some b)
    (hlt : r.toNat < b.toNat) : publish n r t s = some (s.setBest n r) := by
  simp [publish, leq, h, hv, hb, hlt]

theorem publish_of_not_smaller (hv : s.bestValid = true) (hb : s.bestResult = some b)
    (hle : b.toNat ≤ r.toNat) : publish n r t s = some s := by
  simp [publish, hv, hb, hle]

end Publish

/-- Settles O32: the critical section in each of its four cases; the accepted pair and `STOP` are as it leaves them. -/
theorem lanePublishKeepsTheSmaller : Obligations.LanePublishKeepsTheSmaller := by
  intro s l x es n r t ha hp hx hs hn hr ht
  have hstep {s' : State} (h : publish n r t (s.setAgenda es) = some s') :
      step s = .next (s'.setLane l { state := .check, nonce := none, result := none }) :=
    step_of_laneEffect ha (.publishes x n r t s' hp hx hs hn hr ht h)
  exact ⟨fun h => hstep (publish_of_miss h), fun h hv => hstep (publish_of_first h hv),
    fun b h hv hb hlt => by rw [hv]; exact hstep (publish_of_smaller h hv hb hlt),
    fun b _ hv hb hle => hstep (publish_of_not_smaller hv hb hle)⟩

end Sys2Proof
end

section
/-!
PROOFS. A run without resets (spec/43_search.md rules R146, R147, R150, R152): what an item keeps of the run, where a lane goes,
and which nonces are issued.
-/

namespace Sys2Proof

open Sys2Proof.Machine Sys2Proof.Safety

/-! ## What one item does to a run -/

/-- A run is going on or has ended (rule R13). -/
def InRun (s : State) : Prop := s.phase = .searching ∨ s.phase = .stopped

theorem InRun.ne_loading {s : State} (h : InRun s) : s.phase ≠ .loading := by
  rcases h with h | h <;> simp [h]

theorem InRun.ne_armed {s : State} (h : InRun s) : s.phase ≠ .armed := by
  rcases h with h | h <;> simp [h]

/-- The run stands where it stood: `PHASE`, the lanes, the cursor and the accepted nonce are the same in both states. -/
structure SameRun (s t : State) : Prop where
  phase : t.phase = s.phase
  lanes : t.lanes = s.lanes
  cursor : t.cursor = s.cursor
  bestNonce : t.bestNonce = s.bestNonce

theorem SameRun.refl (s : State) : SameRun s s := ⟨rfl, rfl, rfl, rfl⟩

/-! An answer moves neither the run nor the configuration (rules R61, R170). -/

theorem SameRun.respondOk {s t : State} (h : SameRun s t) (d : FixedWord) : SameRun s (t.respondOk d) := { h with }

theorem SameRun.fail (s : State) (e : ErrorCode) : SameRun s (s.fail e) := ⟨rfl, rfl, rfl, rfl⟩

theorem SameConfiguration.respondOk {s t : State} (h : SameConfiguration s t) (d : FixedWord) :
    SameConfiguration s (t.respondOk d) := { h with }

theorem SameConfiguration.fail (s : State) (e : ErrorCode) : SameConfiguration s (s.fail e) :=
  ⟨rfl, rfl, rfl, rfl, rfl, rfl, rfl⟩

/-! The item just taken from the agenda is no part of either. -/

theorem SameRun.of_setAgenda {s t : State} {es : List Event} (h : SameRun (s.setAgenda es) t) : SameRun s t := { h with }

theorem SameConfiguration.of_setAgenda {s t : State} {es : List Event} (h : SameConfiguration (s.setAgenda es) t) :
    SameConfiguration s t := { h with }

/-- Once the run has begun no command but `RESET` moves it: only `SEARCH` would, and it is not permitted (rule R64). -/
theorem Machine.Carried.sameRun {s s' : State} {i : Instr} {d : FixedWord} (h : Carried s i s' d) (hs : InRun s)
    (hi : ∀ f, i ≠ .reset f) : SameRun s s' := by
  cases h with
  | reset f => exact absurd rfl (hi f)
  | arm f hp => exact absurd hp hs.ne_loading
  | search f hp => exact absurd hp hs.ne_armed
  | _ => exact ⟨rfl, rfl, rfl, rfl⟩

/-- Everything an item that is no reset does to a run: a lane takes its step, or the run stands where it stood. -/
theorem Machine.Handled.run_cases {s t : State} {e : Event} (h : Handled s e t) (hs : InRun s) (hr : resets e = false) :
    ((∀ l, e ≠ .lane l) ∧ SameRun s t) ∨ ∃ l, e = .lane l ∧ LaneEffect l s t := by
  cases h with
  | fails w e => exact .inl ⟨nofun, .fail s e⟩
  | carried i s' d hw h => exact .inl ⟨nofun, (h.sameRun hs (ne_reset_of_resets hw hr)).respondOk d⟩
  | lane l t h => exact .inr ⟨l, rfl, h⟩
  | reset => cases hr

/-- A run that has begun goes on or has ended until a reset (rule R13). -/
theorem Machine.Handled.inRun {s t : State} {e : Event} (h : Handled s e t) (hs : InRun s) (hr : resets e = false) :
    InRun t := by
  rcases h.run_cases hs hr with ⟨-, hsame⟩ | ⟨l, -, hlane⟩
  · unfold InRun; rwa [hsame.phase]
  · rcases hlane.phase_cases with hphase | ⟨-, hstopped, -⟩
    · unfold InRun; rwa [hphase]
    · exact .inr hstopped

/-- Once the run has begun nothing but a reset clears `STOP` or takes back an accepted proof (rule R18). -/
theorem Machine.Handled.improves {s t : State} {e : Event} (h : Handled s e t) (hs : InRun s) (hr : resets e = false) :
    Improves s t := by
  cases h with
  | fails => exact improves_of_sameBest id rfl rfl rfl
  | carried i s' d hw h => exact (h.improves hs.ne_armed (ne_reset_of_resets hw hr) : Improves s s')
  | lane l t h => exact h.improves
  | reset => cases hr

/-- A step takes the first item of the agenda, if there is one, and leaves the rest. -/
theorem step_item {s t : State} (h : step s = .next t) :
    (s.agenda = [] ∧ t = s) ∨ ∃ e es, s.agenda = e :: es ∧ t.agenda = es ∧ Handled (s.setAgenda es) e t := by
  rcases step_handled h with h | ⟨e, es, he, h⟩
  exacts [.inl h, .inr ⟨e, es, he, h.agenda_eq, h⟩]

/-! ## Where a lane goes -/

/-- The state after a lane's step (rules R142 to R145): `CHECK` looks at `STOP`, and the rest goes round. -/
def Machine.LaneState.succ (stop : Bool) : LaneState → LaneState
  | .check => if stop then .exited else .fetch
  | .fetch => .eval
  | .eval => .publish
  | .publish => .check
  | .idle => .idle
  | .exited => .exited

/-- Lane `l` takes its step: it was active, and of the lanes it alone changes. -/
def Moves (l : Nat) (s t : State) : Prop :=
  s.phase = .searching ∧ ∃ x y, s.lanes[l]? = some x ∧ x.state.active = true ∧ t.lanes = s.lanes.set l y ∧
    y.state = LaneState.succ s.stop x.state

/-- A chosen lane takes its step, or it has none and nothing changes (rule R146). -/
theorem Machine.LaneEffect.moves {l : Nat} {s t : State} (h : LaneEffect l s t) : (Disabled l s ∧ t = s) ∨ Moves l s t := by
  cases h with
  | none h => exact .inl ⟨h, rfl⟩
  | goesOn x hp hx hs h => exact .inr ⟨hp, x, _, hx, by simp [hs, LaneState.active], rfl, by simp [hs, h, LaneState.succ]⟩
  | exits x hp hx hs h | ends x hp hx hs h =>
    exact .inr ⟨hp, x, _, hx, by simp [hs, LaneState.active], rfl, by simp [hs, h, LaneState.succ]⟩
  | fetches x hp hx hs | evaluates x c n e hp hx hs =>
    exact .inr ⟨hp, x, _, hx, by simp [hs, LaneState.active], rfl, by simp [hs, LaneState.succ]⟩
  | publishes x n r t s' hp hx hs hn hr ht h =>
    exact .inr ⟨hp, x, _, hx, by simp [hs, LaneState.active], by rw [State.setLane_lanes, (publish_frame h).2.2],
      by simp [hs, LaneState.succ]⟩

/-- A lane step changes no other lane (rule R185). -/
theorem Machine.LaneEffect.otherLane {l m : Nat} {s t : State} (h : LaneEffect l s t) (hm : m ≠ l) :
    t.lanes[m]? = s.lanes[m]? := by
  rcases h.moves with ⟨-, rfl⟩ | ⟨-, x, y, -, -, hlanes, -⟩
  · rfl
  · rw [hlanes, List.getElem?_set_ne hm.symm]

/-- Settles O60: no command moves a lane or the phase of a run, and the run does not end while a lane is active. -/
theorem enabledUntilItSteps : Obligations.EnabledUntilItSteps := by
  intro s t l hl hitem hstep
  rcases step_handled hstep with ⟨-, rfl⟩ | ⟨e, es, he, h⟩
  · exact hl
  obtain ⟨hne, hr⟩ := hitem e es he
  obtain ⟨hp, x, hx, hactive⟩ := State.laneEnabled_iff.1 hl
  refine State.laneEnabled_iff.2 ?_
  rcases h.run_cases (.inl hp) hr with ⟨-, hsame⟩ | ⟨m, rfl, hlane⟩
  · exact ⟨hsame.phase.trans hp, x, hsame.lanes ▸ hx, hactive⟩
  · have hx' : t.lanes[l]? = some x := (hlane.otherLane fun hlm => hne (hlm ▸ rfl)).trans hx
    refine ⟨?_, x, hx', hactive⟩
    rcases hlane.phase_cases with hphase | ⟨-, -, hexit, -⟩
    · exact hphase.trans hp
    · rw [hexit x (List.mem_of_getElem? hx')] at hactive
      cases hactive

/-! ## The nonces issued -/

/-- No item to come is a reset (rule R190). -/
def NoReset (s : State) : Prop := ∀ e ∈ s.agenda, resets e = false

/-- Lane `l` is about to draw a nonce (rule R143). -/
def Fetching (l : Nat) (s : State) : Prop := s.phase = .searching ∧ s.lanes[l]?.map Lane.state = some .fetch

theorem Machine.Disabled.not_fetching {l : Nat} {s : State} (h : Disabled l s) : ¬ Fetching l s := by
  rintro ⟨hp, hf⟩
  obtain ⟨x, hx, hs⟩ := Option.map_eq_some_iff.1 hf
  rcases h with h | h
  · exact h hp
  · simpa [hs] using h x hx

theorem publish_cursor {n r t : FixedWord} {s s' : State} (h : publish n r t s = some s') : s'.cursor = s.cursor := by
  rcases publish_eq_some h with rfl | ⟨-, -, rfl⟩ | ⟨b, -, -, -, -, rfl⟩ <;> rfl

/-- `L_FETCH` alone moves the cursor, by one (rule R143). -/
theorem Machine.LaneEffect.cursor_cases {l : Nat} {s t : State} (h : LaneEffect l s t) :
    (Fetching l s ∧ t.cursor = s.cursor + 1) ∨ (¬ Fetching l s ∧ t.cursor = s.cursor) := by
  cases h with
  | none h => exact .inr ⟨h.not_fetching, rfl⟩
  | fetches x hp hx hs => exact .inl ⟨⟨hp, by simp [hx, hs]⟩, rfl⟩
  | publishes x n r t s' hp hx hs hn hr ht h =>
    exact .inr ⟨by simp [Fetching, hx, hs], (publish_cursor h : s'.cursor = s.cursor)⟩
  | goesOn x hp hx hs | exits x hp hx hs | ends x hp hx hs | evaluates x c n e hp hx hs =>
    exact .inr ⟨by simp [Fetching, hx, hs], rfl⟩

theorem issuedNext_of_fetching {l : Nat} {s : State} {es : List Event} (ha : s.agenda = .lane l :: es)
    (h : Fetching l s) : issuedNext s = [s.cursor] := by
  rw [issuedNext, ha]
  exact if_pos h

theorem issuedNext_of_not_fetching {l : Nat} {s : State} {es : List Event} (ha : s.agenda = .lane l :: es)
    (h : ¬ Fetching l s) : issuedNext s = [] := by
  rw [issuedNext, ha]
  exact if_neg h

/-- A step that does not choose a lane issues nothing. -/
theorem issuedNext_of_no_lane {s : State} (h : ∀ l es, s.agenda ≠ .lane l :: es) : issuedNext s = [] := by
  unfold issuedNext
  split
  · exact absurd ‹_› (h _ _)
  · rfl

/-- The first of several steps issues its nonce, and the others go on from there. -/
theorem issued_succ {s t : State} (h : step s = .next t) (k : Nat) : issued (k + 1) s = issuedNext s ++ issued k t := by
  rw [issued, h]

/-- One step of a run without resets: a lane takes its step, or the run stands where it stood; the run goes on either way. -/
theorem step_run_cases {s t : State} (h : step s = .next t) (hs : InRun s) (hr : NoReset s) :
    InRun t ∧ NoReset t ∧ Improves s t ∧
      ((issuedNext s = [] ∧ SameRun s t) ∨ ∃ l es, s.agenda = .lane l :: es ∧ LaneEffect l (s.setAgenda es) t) := by
  rcases step_item h with ⟨ha, rfl⟩ | ⟨e, es, ha, hes, h⟩
  · exact ⟨hs, hr, improves_of_sameBest id rfl rfl rfl, .inl ⟨issuedNext_of_no_lane (by simp [ha]), .refl t⟩⟩
  · rw [NoReset, ha, List.forall_mem_cons] at hr
    obtain ⟨hre, hres⟩ := hr
    have hs' : InRun (s.setAgenda es) := hs
    refine ⟨h.inRun hs' hre, by rwa [NoReset, hes], (h.improves hs' hre : Improves s t), ?_⟩
    rcases h.run_cases hs' hre with ⟨hne, hsame⟩ | ⟨l, rfl, hlane⟩
    · exact .inl ⟨issuedNext_of_no_lane (by simpa [ha] using fun l hl => absurd hl (hne l)), hsame.of_setAgenda⟩
    · exact .inr ⟨l, es, ha, hlane⟩

/-- A step issues the cursor and moves it by one, or issues nothing and leaves it (rule R143). -/
theorem step_issues {s t : State} (h : step s = .next t) (hs : InRun s) (hr : NoReset s) :
    (issuedNext s = [s.cursor] ∧ t.cursor = s.cursor + 1) ∨ (issuedNext s = [] ∧ t.cursor = s.cursor) := by
  obtain ⟨-, -, -, ⟨hnone, hsame⟩ | ⟨l, es, ha, hlane⟩⟩ := step_run_cases h hs hr
  · exact .inr ⟨hnone, hsame.cursor⟩
  · rcases hlane.cursor_cases with ⟨hf, hcursor⟩ | ⟨hf, hcursor⟩
    · exact .inl ⟨issuedNext_of_fetching ha hf, hcursor⟩
    · exact .inr ⟨issuedNext_of_not_fetching ha hf, hcursor⟩

/-- The `n` nonces from `c` on (rule R150). -/
def noncesFrom (c : FixedWord) (n : Nat) : List FixedWord := (List.range n).map fun i => c + BitVec.ofNat 256 i

theorem add_ofNat_succ (c : FixedWord) (i : Nat) : c + BitVec.ofNat 256 (i + 1) = c + 1 + BitVec.ofNat 256 i := by
  rw [Nat.add_comm i 1, BitVec.ofNat_add, ← BitVec.add_assoc]
  rfl

theorem noncesFrom_succ (c : FixedWord) (n : Nat) : noncesFrom c (n + 1) = c :: noncesFrom (c + 1) n := by
  rw [noncesFrom, List.range_succ_eq_map, List.map_cons, List.map_map]
  exact congrArg₂ List.cons (BitVec.add_zero c) (List.map_congr_left fun i _ => add_ofNat_succ c i)

/-- Fewer than `2^256` nonces in a row are all different (rule R150). -/
theorem noncesFrom_nodup (c : FixedWord) {n : Nat} (h : n < 2 ^ 256) : (noncesFrom c n).Nodup := by
  refine List.Nodup.map_on (fun i hi j hj hij => ?_) List.nodup_range
  have hmod := congrArg BitVec.toNat (BitVec.add_right_inj c |>.1 hij)
  rw [List.mem_range] at hi hj
  rwa [BitVec.toNat_ofNat, BitVec.toNat_ofNat, Nat.mod_eq_of_lt (hi.trans h), Nat.mod_eq_of_lt (hj.trans h)] at hmod

/-- The nonces issued in a run are the cursor's value and its successors, and the cursor moves past them. -/
theorem issued_eq_noncesFrom (k : Nat) {s t : State} (hs : InRun s) (hr : NoReset s)
    (h : Sys2Proof.core.run k s = .next t) :
    issued k s = noncesFrom s.cursor (issued k s).length ∧
      t.cursor = s.cursor + BitVec.ofNat 256 (issued k s).length := by
  induction k generalizing s with
  | zero =>
    cases h
    exact ⟨rfl, (BitVec.add_zero _).symm⟩
  | succ k ih =>
    obtain ⟨u, hu, hrun⟩ := core_run_inv h
    obtain ⟨hsu, hru, -⟩ := step_run_cases hu hs hr
    obtain ⟨hlist, hcursor⟩ := ih hsu hru hrun
    rw [issued_succ hu]
    rcases step_issues hu hs hr with ⟨hnext, hc⟩ | ⟨hnext, hc⟩ <;> rw [hc] at hlist hcursor <;> rw [hnext]
    · rw [List.singleton_append, List.length_cons, noncesFrom_succ, ← hlist, add_ofNat_succ]
      exact ⟨rfl, hcursor⟩
    · exact ⟨hlist, hcursor⟩

/-- Settles O50: each `L_FETCH` issues the cursor, and nothing else moves it. -/
theorem noncesAreIssuedInOrder : Obligations.NoncesAreIssuedInOrder := by
  intro s t k hp hr h
  obtain ⟨hlist, hcursor⟩ := issued_eq_noncesFrom k (.inl hp) hr h
  exact ⟨hlist, hcursor, fun hlt => hlist ▸ noncesFrom_nodup s.cursor hlt⟩

/-! ## Draws after `STOP` -/

/-- How many lanes are about to draw a nonce. -/
def fetchCount (s : State) : Nat := s.lanes.countP fun x => decide (x.state = .fetch)

/-- With `STOP = 1` no lane enters `FETCH` (rule R142). -/
theorem succ_true_ne_fetch (p : LaneState) : LaneState.succ true p ≠ .fetch := by
  cases p <;> simp [LaneState.succ]

/-- With `STOP = 1` a lane's step takes that lane out of `FETCH`, if it was there. -/
theorem Moves.fetchCount_add {l : Nat} {s t : State} {x : Lane} (h : Moves l s t) (hstop : s.stop = true)
    (hx : s.lanes[l]? = some x) : fetchCount t + (if x.state = .fetch then 1 else 0) = fetchCount s := by
  obtain ⟨-, x', y, hx', -, hlanes, hy⟩ := h
  cases hx.symm.trans hx'
  obtain ⟨hlt, rfl⟩ := List.getElem?_eq_some_iff.1 hx
  have hne : y.state ≠ .fetch := by rw [hy, hstop]; exact succ_true_ne_fetch _
  have hpos : s.lanes[l].state = .fetch → 0 < fetchCount s := fun hf =>
    List.countP_pos_iff.2 ⟨_, List.getElem_mem hlt, by simp [hf]⟩
  have ht : fetchCount t = fetchCount s - if s.lanes[l].state = .fetch then 1 else 0 := by
    simp [fetchCount, hlanes, List.countP_set hlt, hne]
  by_cases hf : s.lanes[l].state = .fetch
  · have := hpos hf
    simp only [hf, if_true] at ht ⊢
    omega
  · simpa [hf] using ht

/-- Each nonce issued with `STOP = 1` takes a lane out of `FETCH`, and no lane comes there. -/
theorem step_draws {s t : State} (h : step s = .next t) (hs : InRun s) (hr : NoReset s) (hstop : s.stop = true) :
    (issuedNext s).length + fetchCount t ≤ fetchCount s := by
  obtain ⟨-, -, -, ⟨hnone, hsame⟩ | ⟨l, es, ha, hlane⟩⟩ := step_run_cases h hs hr
  · rw [hnone, fetchCount, hsame.lanes, List.length_nil, Nat.zero_add, fetchCount]
  · rcases hlane.moves with ⟨hdis, rfl⟩ | hmoves
    · have hnf : ¬ Fetching l s := hdis.not_fetching
      simp [issuedNext_of_not_fetching ha hnf, fetchCount]
    · have hmoves : Moves l s t := hmoves
      obtain ⟨hp, x, -, hx, -⟩ := id hmoves
      have hcount := hmoves.fetchCount_add hstop hx
      by_cases hf : x.state = .fetch
      · rw [issuedNext_of_fetching ha ⟨hp, by simp [hx, hf]⟩]
        simp only [hf, if_true] at hcount
        simp only [List.length_singleton]
        omega
      · rw [issuedNext_of_not_fetching ha (by simp [Fetching, hx, hf])]
        simp only [hf, if_false] at hcount
        simp only [List.length_nil]
        omega

/-- The nonces issued in a run with `STOP = 1` are at most the lanes that were in `FETCH` (rule R152). -/
theorem issued_length_le_fetchCount (k : Nat) {s t : State} (hs : InRun s) (hr : NoReset s) (hstop : s.stop = true)
    (h : Sys2Proof.core.run k s = .next t) : (issued k s).length ≤ fetchCount s := by
  induction k generalizing s with
  | zero => exact Nat.zero_le _
  | succ k ih =>
    obtain ⟨u, hu, hrun⟩ := core_run_inv h
    obtain ⟨hsu, hru, ⟨hstopu, -⟩, -⟩ := step_run_cases hu hs hr
    have hrest := ih hsu hru (hstopu hstop) hrun
    have hfirst := step_draws hu hs hr hstop
    rw [issued_succ hu, List.length_append]
    omega

/-- Settles O56: a lane that draws leaves `FETCH`, and with `STOP = 1` none comes back. -/
theorem drawsAfterStopAreBounded : Obligations.DrawsAfterStopAreBounded :=
  fun _ _ k hp hstop hr h => issued_length_le_fetchCount k (.inl hp) hr hstop h

end Sys2Proof
end

section
/-!
PROOFS. The nonces of a run (spec/43_search.md rules R149, R150): none that was drawn is lost, no two lanes hold the same one, and
the accepted proof of an ended run is the minimum.
-/

namespace Sys2Proof

open Sys2Proof.Machine Sys2Proof.Safety

/-! ## Nonces in hand -/

/-- The lane has drawn nonce `n` and not finished with it (rule R25). -/
def Machine.Lane.HasDrawn (x : Lane) (n : FixedWord) : Prop := (x.state = .eval ∨ x.state = .publish) ∧ x.nonce = some n

theorem inHand_iff {s : State} {n : FixedWord} :
    inHand s n ↔ ∃ (m : Nat) (z : Lane), s.lanes[m]? = some z ∧ z.HasDrawn n := by
  constructor
  · rintro ⟨z, hz, hn⟩
    obtain ⟨m, hm⟩ := List.mem_iff_getElem?.1 hz
    exact ⟨m, z, hm, hn⟩
  · rintro ⟨m, z, hm, hn⟩
    exact ⟨z, List.mem_of_getElem? hm, hn⟩

/-- A lane that holds no nonce has drawn none. -/
theorem not_hasDrawn {x : Lane} (h : x.state ≠ .eval ∧ x.state ≠ .publish) (n : FixedWord) : ¬ x.HasDrawn n :=
  fun ⟨hs, _⟩ => hs.elim h.1 h.2

section SetLane
variable {s t : State} {l : Nat} {x y : Lane} {n : FixedWord}

/-- A nonce in hand after one lane has changed is that lane's, or was in hand before. -/
theorem inHand_of_set (hlanes : t.lanes = s.lanes.set l y) (h : inHand t n) : y.HasDrawn n ∨ inHand s n := by
  obtain ⟨m, z, hz, hn⟩ := inHand_iff.1 h
  rcases lane_of_set (hlanes ▸ hz) with ⟨-, rfl⟩ | ⟨-, hz⟩
  · exact .inl hn
  · exact .inr (inHand_iff.2 ⟨m, z, hz, hn⟩)

/-- A nonce in hand before one lane has changed was that lane's, or is in hand still. -/
theorem inHand_set_of (hx : s.lanes[l]? = some x) (hlanes : t.lanes = s.lanes.set l y) (h : inHand s n) :
    x.HasDrawn n ∨ inHand t n := by
  obtain ⟨m, z, hz, hn⟩ := inHand_iff.1 h
  by_cases hm : m = l
  · subst hm
    cases hx.symm.trans hz
    exact .inl hn
  · exact .inr (inHand_iff.2 ⟨m, z, by rw [hlanes, List.getElem?_set_ne (Ne.symm hm), hz], hn⟩)

theorem inHand_set_self (hx : s.lanes[l]? = some x) (hlanes : t.lanes = s.lanes.set l y) (h : y.HasDrawn n) : inHand t n := by
  obtain ⟨hl, -⟩ := List.getElem?_eq_some_iff.1 hx
  exact inHand_iff.2 ⟨l, y, by rw [hlanes, List.getElem?_set_self hl], h⟩

/-! ## What keeps the two promises -/

/-- One lane changes: every nonce now drawn was drawn before or is that lane's, what the lane gives up is settled, and what was
settled stays so. -/
theorem nothingLost_of_set (h : NothingLost s) (hx : s.lanes[l]? = some x) (hlanes : t.lanes = s.lanes.set l y)
    (hdrawn : ∀ n, drawn t n → drawn s n ∨ y.HasDrawn n) (hgives : ∀ n, x.HasDrawn n → y.HasDrawn n ∨ settled t n)
    (hsettled : ∀ n, settled s n → settled t n) : NothingLost t := by
  intro n hn
  rcases hdrawn n hn with hd | hy
  · rcases h n hd with hhand | hset
    · rcases inHand_set_of hx hlanes hhand with hxn | hhand
      · exact (hgives n hxn).imp_left (inHand_set_self hx hlanes)
      · exact .inl hhand
    · exact .inr (hsettled n hset)
  · exact .inl (inHand_set_self hx hlanes hy)

/-- Two lanes that have drawn the same nonce are one lane (rule R150). -/
theorem Safety.NoRepeat.eq_of_hasDrawn (h : NoRepeat s) {m k : Nat} {z w : Lane} (hz : s.lanes[m]? = some z)
    (hw : s.lanes[k]? = some w) (hzn : z.HasDrawn n) (hwn : w.HasDrawn n) : m = k :=
  h.handDistinct m k z w n hz hw hzn.1 hwn.1 hzn.2 hwn.2

/-- One lane changes: what it holds it held before, or it is a fresh nonce; the accepted nonce is as before or one it held. -/
theorem noRepeat_of_set (h : NoRepeat s) (hx : s.lanes[l]? = some x) (hlanes : t.lanes = s.lanes.set l y)
    (hdrawn : ∀ n, drawn s n → drawn t n) (hy : ∀ n, y.HasDrawn n → x.HasDrawn n ∨ (¬ drawn s n ∧ drawn t n))
    (hbest : ∀ n, t.bestNonce = some n → s.bestNonce = some n ∨ x.HasDrawn n) : NoRepeat t := by
  have hxdrawn {n} (hn : x.HasDrawn n) : drawn s n := h.handDrawn n (inHand_iff.2 ⟨l, x, hx, hn⟩)
  have hother {n m z} (hm : m ≠ l) (hz : s.lanes[m]? = some z) (hzn : z.HasDrawn n) : ¬ y.HasDrawn n := fun hyn => by
    rcases hy n hyn with hxn | ⟨hnd, -⟩
    · exact hm (h.eq_of_hasDrawn hz hx hzn hxn)
    · exact hnd (h.handDrawn n (inHand_iff.2 ⟨m, z, hz, hzn⟩))
  refine ⟨fun n hn => ?_, fun n hn => ?_, fun m k z w n hz hw hzs hws hzn hwn => ?_⟩
  · rcases inHand_of_set hlanes hn with hyn | hn
    · exact (hy n hyn).elim (fun hxn => hdrawn n (hxdrawn hxn)) And.right
    · exact hdrawn n (h.handDrawn n hn)
  · exact hdrawn n ((hbest n hn).elim (h.bestDrawn n) hxdrawn)
  · rcases lane_of_set (hlanes ▸ hz) with ⟨rfl, rfl⟩ | ⟨hm, hz⟩ <;>
      rcases lane_of_set (hlanes ▸ hw) with ⟨rfl, rfl⟩ | ⟨hk, hw⟩
    · rfl
    · exact absurd ⟨hzs, hzn⟩ (hother hk hw ⟨hws, hwn⟩)
    · exact absurd ⟨hws, hwn⟩ (hother hm hz ⟨hzs, hzn⟩)
    · exact h.handDistinct m k z w n hz hw hzs hws hzn hwn

end SetLane

/-! ## Settled nonces -/

/-- A nonce has one result (rule R106). -/
theorem resultOf_unique {s : State} {n r r' : FixedWord} (h : ResultOf s n r) (h' : ResultOf s n r') : r = r' := by
  obtain ⟨c, e, hc, he, rfl⟩ := h
  obtain ⟨c', e', hc', he', rfl⟩ := h'
  cases hc.symm.trans hc'
  cases he.symm.trans he'
  rfl

theorem SameConfiguration.resultOf {s t : State} (h : SameConfiguration s t) {n r : FixedWord} :
    ResultOf t n r ↔ ResultOf s n r := by
  simp only [ResultOf, h.cfg, h.table, h.commit]

/-- What is settled stays settled while the configuration stays and the accepted proof only improves. -/
theorem settled_mono {s t : State} {n : FixedWord} (hc : SameConfiguration s t) (hi : Improves s t) (h : settled s n) :
    settled t n := by
  intro r tg hr ht hle
  obtain ⟨hv, b, hb, hbr⟩ := h r tg (hc.resultOf.1 hr) (hc.target ▸ ht) hle
  obtain ⟨hv', hbest⟩ := hi.2 hv
  rcases hbest b hb with ⟨-, hb'⟩ | ⟨b', hb', hlt⟩
  · exact ⟨hv', b, hb', hbr⟩
  · exact ⟨hv', b', hb', by omega⟩

/-- A candidate that has arrived is settled (rule R145). -/
theorem publish_settles {s s' : State} {n r t : FixedWord} (h : publish n r t s = some s') (hr : ResultOf s n r)
    (ht : s.target = some t) : settled s' n := by
  intro r' t' hr' ht' hle
  obtain ⟨hconf, -, -⟩ := publish_frame h
  obtain rfl : r' = r := resultOf_unique (hconf.resultOf.1 hr') hr
  obtain rfl : t' = t := Option.some.inj (ht'.symm.trans (hconf.target.trans ht))
  rcases publish_cases n r' t' s with
    ⟨hmiss, -⟩ | ⟨-, -, h'⟩ | ⟨-, -, -, h'⟩ | ⟨b, -, -, -, -, h'⟩ | ⟨b, -, hv, hb, hbr, h'⟩
  · omega
  · cases h.symm.trans h'
    exact ⟨rfl, r', rfl, Nat.le_refl _⟩
  · cases h.symm.trans h'
  · cases h.symm.trans h'
    exact ⟨rfl, r', rfl, Nat.le_refl _⟩
  · cases h.symm.trans h'
    exact ⟨hv, b, hb, hbr⟩

/-! ## Drawn nonces -/

theorem drawn_congr {s t : State} (hcfg : t.cfg = s.cfg) (hcursor : t.cursor = s.cursor) {n : FixedWord} :
    drawn t n ↔ drawn s n := by
  rw [drawn, hcfg, hcursor, drawn]

/-- The distance from the first nonce grows by one with the cursor, unless the cursor comes back to it. -/
theorem toNat_add_one_sub (c i : FixedWord) :
    (c + 1 - i).toNat = if c + 1 = i then 0 else (c - i).toNat + 1 := by
  split
  · rw [‹c + 1 = i›, BitVec.sub_self]
    rfl
  · bv_omega

section Draw
variable {s : State} {l : Nat} {y : Lane}

/-- The nonces drawn after `L_FETCH` (rule R143). -/
theorem drawn_draw_iff {n : FixedWord} : drawn ((s.setCursor (s.cursor + 1)).setLane l y) n ↔
    (n - s.cfg.cursorInit).toNat < if s.cursor + 1 = s.cfg.cursorInit then 0 else (s.cursor - s.cfg.cursorInit).toNat + 1 := by
  rw [← toNat_add_one_sub]
  rfl

/-- A nonce drawn after `L_FETCH` was drawn before, or is the cursor's old value. -/
theorem drawn_of_draw {n : FixedWord} (h : drawn ((s.setCursor (s.cursor + 1)).setLane l y) n) :
    drawn s n ∨ n = s.cursor := by
  rw [drawn_draw_iff] at h
  split at h
  · omega
  · rcases Nat.lt_succ_iff_lt_or_eq.1 h with h | h
    · exact .inl h
    · exact .inr (BitVec.sub_left_inj s.cfg.cursorInit |>.1 (BitVec.eq_of_toNat_eq h))

/-- Unless the cursor comes back to its first value, what was drawn stays drawn. -/
theorem drawn_draw_of {n : FixedWord} (hwrap : s.cursor + 1 ≠ s.cfg.cursorInit) (h : drawn s n) :
    drawn ((s.setCursor (s.cursor + 1)).setLane l y) n := by
  rw [drawn_draw_iff, if_neg hwrap]
  exact Nat.lt_succ_of_lt h

theorem drawn_draw_cursor (hwrap : s.cursor + 1 ≠ s.cfg.cursorInit) :
    drawn ((s.setCursor (s.cursor + 1)).setLane l y) s.cursor := by
  rw [drawn_draw_iff, if_neg hwrap]
  exact Nat.lt_succ_self _

end Draw

theorem not_drawn_cursor (s : State) : ¬ drawn s s.cursor := Nat.lt_irrefl _

/-! ## A run that has not begun, or has just begun -/

/-- Nothing is drawn, in hand or accepted. -/
structure Fresh (s : State) : Prop where
  cursor : s.cursor = s.cfg.cursorInit
  lanes : ∀ x ∈ s.lanes, x.state ≠ .eval ∧ x.state ≠ .publish
  bestNonce : s.bestNonce = none

section Fresh
variable {s : State}

theorem Fresh.not_drawn (h : Fresh s) (n : FixedWord) : ¬ drawn s n := by
  rw [drawn, h.cursor, BitVec.sub_self]
  exact Nat.not_lt_zero _

theorem Fresh.not_inHand (h : Fresh s) (n : FixedWord) : ¬ inHand s n :=
  fun ⟨x, hx, hn⟩ => not_hasDrawn (h.lanes x hx) n hn

theorem Fresh.respondOk (h : Fresh s) (d : FixedWord) : Fresh (s.respondOk d) := { h with }

theorem Fresh.nothingLost (h : Fresh s) : NothingLost s := fun n hn => absurd hn (h.not_drawn n)

theorem Fresh.noRepeat (h : Fresh s) : NoRepeat s where
  handDrawn n hn := absurd hn (h.not_inHand n)
  bestDrawn n hn := by rw [h.bestNonce] at hn; cases hn
  handDistinct _ _ x _ n hx _ hs _ hn _ := absurd ⟨x, List.mem_of_getElem? hx, hs, hn⟩ (h.not_inHand n)

/-- Before a run nothing has happened to it (item 3 of rule R28). -/
theorem Safety.Inv.fresh (h : Inv s) (hp : s.phase = .loading ∨ s.phase = .armed) : Fresh s := by
  obtain ⟨-, hv, hcursor, hidle⟩ := h.beforeRun hp
  exact ⟨hcursor, fun x hx => by simp [hidle x hx], by simpa [hv] using h.bestHolds.1⟩

/-- `SEARCH` starts a run in which nothing has happened yet (rule R140). -/
theorem fresh_startRun (s : State) : Fresh s.startRun := by
  refine ⟨rfl, fun x hx => ?_, rfl⟩
  obtain ⟨y, -, rfl⟩ := List.mem_map.1 hx
  exact ⟨nofun, nofun⟩

end Fresh

/-- Everything a command does to the run: it leaves a run in which nothing has happened, or it leaves the run where it stood. -/
theorem Machine.Carried.fresh_or_same {s s' : State} {i : Instr} {d : FixedWord} (h : Carried s i s' d) (hinv : Inv s) :
    Fresh s' ∨ (SameRun s s' ∧ SameConfiguration s s' ∧ Improves s s') := by
  have hinv' : Inv s' := h.inv hinv
  cases h with
  | reset => exact .inl (hinv'.fresh (.inl rfl))
  | wrTable f hp | wrCommit f hp | wrTarget f hp => exact .inl (hinv'.fresh (.inl hp))
  | arm f hp => exact .inl (hinv'.fresh (.inr rfl))
  | search f hp => exact .inl (fresh_startRun s)
  | halt f hp =>
    exact .inr ⟨⟨rfl, rfl, rfl, rfl⟩, ⟨rfl, rfl, rfl, rfl, rfl, rfl, rfl⟩, improves_of_sameBest (fun _ => rfl) rfl rfl rfl⟩
  | _ => exact .inr ⟨⟨rfl, rfl, rfl, rfl⟩, ⟨rfl, rfl, rfl, rfl, rfl, rfl, rfl⟩, improves_of_sameBest id rfl rfl rfl⟩

/-- Everything a step does to the run, from a state that meets the invariants. -/
theorem step_fresh_or_run {s t : State} (hstep : step s = .next t) (hinv : Inv s) :
    Fresh t ∨ (SameRun s t ∧ SameConfiguration s t ∧ Improves s t) ∨ ∃ l es, LaneEffect l (s.setAgenda es) t := by
  rcases step_handled hstep with ⟨-, rfl⟩ | ⟨e, es, -, hitem⟩
  · exact .inr (.inl ⟨.refl t, .refl t, improves_of_sameBest id rfl rfl rfl⟩)
  cases hitem with
  | fails w e =>
    exact .inr (.inl ⟨(SameRun.fail _ e).of_setAgenda, (SameConfiguration.fail _ e).of_setAgenda,
      improves_of_sameBest id rfl rfl rfl⟩)
  | carried i s' d hw hc =>
    rcases hc.fresh_or_same (hinv.setAgenda es) with hfresh | ⟨hrun, hconf, hi⟩
    · exact .inl (hfresh.respondOk d)
    · exact .inr (.inl ⟨(hrun.respondOk d).of_setAgenda, (hconf.respondOk d).of_setAgenda, (hi : Improves s s')⟩)
  | lane l t he => exact .inr (.inr ⟨l, es, he⟩)
  | reset =>
    have hreset : Inv (s.setAgenda es).resetBlock := .resetBlock
    exact .inl (hreset.fresh (.inl rfl))

/-! ## No nonce is lost -/

theorem nothingLost_of_same {s t : State} (hrun : SameRun s t) (hc : SameConfiguration s t) (hi : Improves s t)
    (h : NothingLost s) : NothingLost t := by
  intro n hn
  rcases h n ((drawn_congr hc.cfg hrun.cursor).1 hn) with ⟨x, hx, hxn⟩ | hset
  · exact .inl ⟨x, hrun.lanes ▸ hx, hxn⟩
  · exact .inr (settled_mono hc hi hset)

/-- A lane step loses no nonce: `L_FETCH` draws one into its lane's hand, and `L_PUBLISH` settles the one it lets go. -/
theorem Machine.LaneEffect.nothingLost {l : Nat} {s t : State} (he : LaneEffect l s t) (hinv : Inv s) (h : NothingLost s) :
    NothingLost t := by
  have hsettled (n) (hn : settled s n) : settled t n := settled_mono he.sameConfiguration he.improves hn
  cases he with
  | none => exact h
  | goesOn x hp hx hs | exits x hp hx hs | ends x hp hx hs =>
    exact nothingLost_of_set h hx rfl (fun _ hn => .inl hn) (fun n hn => absurd hn (not_hasDrawn (by simp [hs]) n)) hsettled
  | fetches x hp hx hs =>
    refine nothingLost_of_set h hx rfl (fun n hn => ?_) (fun n hn => absurd hn (not_hasDrawn (by simp [hs]) n)) hsettled
    exact (drawn_of_draw hn).imp_right fun hcursor => ⟨.inl rfl, congrArg some hcursor.symm⟩
  | evaluates x c n e hp hx hs =>
    exact nothingLost_of_set h hx rfl (fun _ hn => .inl hn) (fun _ hn => .inl ⟨.inr rfl, hn.2⟩) hsettled
  | publishes x n r t s' hp hx hs hn hr ht hs' =>
    obtain ⟨hconf, -, hlanes⟩ := publish_frame hs'
    refine nothingLost_of_set h hx (congrArg (List.set · l _) hlanes)
      (fun m hm => .inl ((drawn_congr hconf.cfg (publish_cursor hs')).1 hm)) (fun m hm => .inr ?_) hsettled
    obtain rfl : n = m := Option.some.inj (hn.symm.trans hm.2)
    exact (publish_settles hs' (hinv.laneResult x (List.mem_of_getElem? hx) n r hn hr) ht : settled s' n)

/-- Settles O51: every nonce drawn is settled, or some lane still has it in hand. -/
theorem noDrawnNonceIsLost : Obligations.NoDrawnNonceIsLost := by
  intro s t hinv h hstep
  rcases step_fresh_or_run hstep hinv with hfresh | ⟨hrun, hc, hi⟩ | ⟨l, es, he⟩
  · exact hfresh.nothingLost
  · exact nothingLost_of_same hrun hc hi h
  · exact he.nothingLost (hinv.setAgenda es) h

/-! ## No nonce is held twice -/

theorem noRepeat_of_same {s t : State} (hcfg : t.cfg = s.cfg) (hrun : SameRun s t) (h : NoRepeat s) : NoRepeat t where
  handDrawn n := fun ⟨x, hx, hxn⟩ => (drawn_congr hcfg hrun.cursor).2 (h.handDrawn n ⟨x, hrun.lanes ▸ hx, hxn⟩)
  bestDrawn n hn := (drawn_congr hcfg hrun.cursor).2 (h.bestDrawn n (hrun.bestNonce ▸ hn))
  handDistinct l m x y n hx hy := h.handDistinct l m x y n (hrun.lanes ▸ hx) (hrun.lanes ▸ hy)

theorem Safety.NoRepeat.setAgenda {s : State} (h : NoRepeat s) (es : List Event) : NoRepeat (s.setAgenda es) := { h with }

/-- A lane step that does not bring the cursor back to its first value: `L_FETCH` takes a nonce no one has, and `L_PUBLISH`
accepts the one its lane had. -/
theorem Machine.LaneEffect.noRepeat {l : Nat} {s t : State} (he : LaneEffect l s t) (h : NoRepeat s)
    (hwrap : s.cursor + 1 ≠ s.cfg.cursorInit) : NoRepeat t := by
  cases he with
  | none => exact h
  | goesOn x hp hx hs | exits x hp hx hs | ends x hp hx hs =>
    exact noRepeat_of_set h hx rfl (fun _ => id) (fun n hn => absurd hn (not_hasDrawn (by simp) n)) fun _ => .inl
  | fetches x hp hx hs =>
    refine noRepeat_of_set h hx rfl (fun _ => drawn_draw_of hwrap) (fun n hn => .inr ?_) fun _ => .inl
    obtain rfl : s.cursor = n := Option.some.inj hn.2
    exact ⟨not_drawn_cursor s, drawn_draw_cursor hwrap⟩
  | evaluates x c n e hp hx hs =>
    exact noRepeat_of_set h hx rfl (fun _ => id) (fun _ hn => .inl ⟨.inl hs, hn.2⟩) fun _ => .inl
  | publishes x n r t s' hp hx hs hn hr ht hs' =>
    obtain ⟨hconf, -, hlanes⟩ := publish_frame hs'
    refine noRepeat_of_set h hx (congrArg (List.set · l _) hlanes)
      (fun m => (drawn_congr hconf.cfg (publish_cursor hs')).2) (fun m hm => absurd hm (not_hasDrawn (by simp) m)) fun m hm => ?_
    rcases publish_eq_some hs' with rfl | ⟨-, -, rfl⟩ | ⟨b, -, -, -, -, rfl⟩
    · exact .inl hm
    all_goals exact .inr ⟨.inr hs, hn.trans hm⟩

/-- Settles O52: the one nonce a step hands out is the cursor, which no lane holds. -/
theorem noNonceIsHeldTwice : Obligations.NoNonceIsHeldTwice := by
  intro s t hinv h hwrap hstep
  rcases step_fresh_or_run hstep hinv with hfresh | ⟨hrun, hc, -⟩ | ⟨l, es, he⟩
  · exact hfresh.noRepeat
  · exact noRepeat_of_same hc.cfg hrun h
  · exact he.noRepeat (h.setAgenda es) hwrap

/-! ## The final proof -/

/-- How many nonces the run has drawn, while fewer than `2^256` were (rule R150). -/
def drawnCount (s : State) : Nat := (s.cursor - s.cfg.cursorInit).toNat

/-- A step draws at most one nonce (rule R143). -/
theorem step_drawnCount_le {s t : State} (h : step s = .next t) (hinv : Inv s) : drawnCount t ≤ drawnCount s + 1 := by
  unfold drawnCount
  rcases step_fresh_or_run h hinv with hfresh | ⟨hrun, hc, -⟩ | ⟨l, es, he⟩
  · simp [hfresh.cursor]
  · rw [hrun.cursor, hc.cfg]
    omega
  · have hcfg : t.cfg = s.cfg := he.sameConfiguration.cfg
    rcases he.cursor_cases with ⟨-, hcursor⟩ | ⟨-, hcursor⟩ <;> rw [hcursor, hcfg]
    · rw [State.setAgenda_cursor, toNat_add_one_sub]
      split <;> omega
    · exact Nat.le_succ _

/-- The cursor comes back to its first value only after `2^256` nonces. -/
theorem cursor_add_one_ne_of_drawnCount {s : State} (h : drawnCount s + 1 < 2 ^ 256) : s.cursor + 1 ≠ s.cfg.cursorInit := by
  unfold drawnCount at h
  bv_omega

/-- What holds of a run from reset after `k` steps. -/
structure AfterSteps (k : Nat) (s : State) : Prop where
  inv : Inv s
  nothingLost : NothingLost s
  noRepeat : NoRepeat s
  drawnCount_le : drawnCount s ≤ k

theorem afterSteps_reset (c : Config) (es : List Event) : AfterSteps 0 { State.resetOf c with agenda := es } := by
  obtain ⟨hinv, hlost, hrepeat, -⟩ := invariantsHoldAfterReset c es
  exact ⟨hinv, hlost, hrepeat, by simp [drawnCount]⟩

theorem AfterSteps.step {k : Nat} {s t : State} (h : AfterSteps k s) (hk : k + 1 < 2 ^ 256) (hstep : step s = .next t) :
    AfterSteps (k + 1) t := by
  have hcount := h.drawnCount_le
  exact {
    inv := stepKeepsInvariants s t h.inv hstep
    nothingLost := noDrawnNonceIsLost s t h.inv h.nothingLost hstep
    noRepeat := noNonceIsHeldTwice s t h.inv h.noRepeat (cursor_add_one_ne_of_drawnCount (by omega)) hstep
    drawnCount_le := (step_drawnCount_le hstep h.inv).trans (by omega) }

theorem AfterSteps.run {j k : Nat} {s t : State} (h : AfterSteps j s) (hk : j + k < 2 ^ 256)
    (hrun : Sys2Proof.core.run k s = .next t) : AfterSteps (j + k) t := by
  induction k generalizing j s with
  | zero => cases hrun; exact h
  | succ k ih =>
    obtain ⟨u, hu, hrun⟩ := core_run_inv hrun
    rw [← Nat.add_assoc, Nat.add_right_comm]
    exact ih (h.step (by omega) hu) (by omega) hrun

/-- Once every lane has exited no nonce is in hand. -/
theorem Safety.Inv.not_inHand_of_stopped {s : State} (h : Inv s) (hp : s.phase = .stopped) (n : FixedWord) : ¬ inHand s n := by
  obtain ⟨hexit, -, -⟩ := h.ended hp
  exact fun ⟨x, hx, hn⟩ => not_hasDrawn (by simp [hexit x hx]) n hn

/-- Settles O53: in `STOPPED` no nonce is in hand, so every one drawn is settled, and the accepted one was drawn. -/
theorem finalProofIsTheMinimum : Obligations.FinalProofIsTheMinimum := by
  intro c es k s t hk hrun hp ht
  have h : AfterSteps (0 + k) s := (afterSteps_reset c es).run (by omega) hrun
  refine ⟨fun n r hn hr hle => ?_, fun hv => ?_⟩
  · rcases h.nothingLost n hn with hhand | hset
    · exact absurd hhand (h.inv.not_inHand_of_stopped hp n)
    · exact hset r t hr ht hle
  · obtain ⟨-, t', n, b, ht', hn, hb, hle, hr⟩ := h.inv.best hv
    cases ht.symm.trans ht'
    exact ⟨n, b, hn, hb, h.noRepeat.bestDrawn n hn, hr, hle⟩

end Sys2Proof
end

section
/-!
PROOFS. The end of a run (spec/43_search.md rules R147, R152): once `STOP` is 1 each lane step takes one from a count that is 0
exactly in `STOPPED`, and under weak fairness the count reaches 0.
-/

namespace Sys2Proof

open Sys2Proof.Machine Sys2Proof.Safety

/-! ## The steps left -/

theorem stepsLeft_le (p : LaneState) : stepsLeft p ≤ 4 := by
  cases p <;> decide

/-- The steps left are those until the lane is no longer active (rule R19). -/
theorem stepsLeft_eq_zero_iff {p : LaneState} : stepsLeft p = 0 ↔ p.active = false := by
  cases p <;> simp [stepsLeft, LaneState.active]

/-- With `STOP = 1` an active lane's step takes one from the steps it has left (rule R152). -/
theorem stepsLeft_succ {p : LaneState} (h : p.active = true) : stepsLeft (LaneState.succ true p) + 1 = stepsLeft p := by
  cases p with
  | idle | exited => cases h
  | check | fetch | eval | publish => rfl

/-- A sum over the lanes after one of them has changed. -/
theorem sum_map_set (f : Lane → Nat) {ls : List Lane} {l : Nat} {x : Lane} (hx : ls[l]? = some x) (y : Lane) :
    ((ls.set l y).map f).sum + f x = (ls.map f).sum + f y := by
  induction ls generalizing l with
  | nil => cases hx
  | cons z ls ih =>
    cases l with
    | zero =>
      cases hx
      simp only [List.set_cons_zero, List.map_cons, List.sum_cons]
      omega
    | succ l =>
      have := ih hx
      simp only [List.set_cons_succ, List.map_cons, List.sum_cons]
      omega

/-- No lane has a step left when none is active. -/
theorem drainSteps_eq_zero_iff {s : State} : drainSteps s = 0 ↔ ∀ x ∈ s.lanes, x.state.active = false := by
  simp [drainSteps, List.sum_eq_zero_iff, stepsLeft_eq_zero_iff]

/-- At most four steps for each of the `W` lanes (rule R152). -/
theorem Safety.Inv.drainSteps_le {s : State} (h : Inv s) : drainSteps s ≤ 4 * s.cfg.W := by
  have hle := List.sum_le_card_nsmul (s.lanes.map fun x => stepsLeft x.state) 4 (by simp [stepsLeft_le])
  rwa [List.length_map, h.laneCount, smul_eq_mul, Nat.mul_comm] at hle

/-- The run has ended exactly when no step is left (items 4 and 5 of rule R28). -/
theorem Safety.Inv.stopped_iff {s : State} (h : Inv s) (hs : InRun s) : s.phase = .stopped ↔ drainSteps s = 0 := by
  rw [drainSteps_eq_zero_iff]
  constructor
  · intro hp x hx
    rw [(h.ended hp).1 x hx]
    rfl
  · intro hnone
    refine hs.resolve_left fun hp => ?_
    obtain ⟨-, x, hx, hactive⟩ := h.running hp
    rw [hnone x hx] at hactive
    cases hactive

section Moves
variable {l : Nat} {s t : State} {x : Lane}

/-- With `STOP = 1` the lane that takes its step has one step less left. -/
theorem Moves.stepsLeft_lane (h : Moves l s t) (hstop : s.stop = true) (hx : s.lanes[l]? = some x) :
    ∃ y, t.lanes = s.lanes.set l y ∧ t.lanes[l]? = some y ∧ stepsLeft y.state + 1 = stepsLeft x.state := by
  obtain ⟨-, x', y, hx', hactive, hlanes, hy⟩ := h
  cases hx.symm.trans hx'
  obtain ⟨hlt, -⟩ := List.getElem?_eq_some_iff.1 hx
  exact ⟨y, hlanes, by rw [hlanes, List.getElem?_set_self hlt], by rw [hy, hstop, stepsLeft_succ hactive]⟩

/-- With `STOP = 1` a lane's step takes one from the count. -/
theorem Moves.drainSteps_succ (h : Moves l s t) (hstop : s.stop = true) : drainSteps t + 1 = drainSteps s := by
  obtain ⟨-, x, -, hx, -⟩ := id h
  obtain ⟨y, hlanes, -, hy⟩ := h.stepsLeft_lane hstop hx
  have hsum := sum_map_set (fun z => stepsLeft z.state) hx y
  unfold drainSteps
  rw [hlanes]
  omega

end Moves

/-! ## A run that drains -/

/-- `STOP` is 1 in a run that is going on or has ended. -/
structure Draining (s : State) : Prop where
  inv : Inv s
  inRun : InRun s
  stop : s.stop = true

theorem Draining.setAgenda {s : State} (h : Draining s) (es : List Event) : Draining (s.setAgenda es) :=
  ⟨h.inv.setAgenda es, h.inRun, h.stop⟩

/-- Every item but a reset goes on draining. -/
theorem Draining.step {s t : State} {e : Event} {es : List Event} (h : Draining s) (ha : s.agenda = e :: es)
    (hr : resets e = false) (hstep : Machine.step s = .next t) : Draining t ∧ t.agenda = es := by
  rcases step_item hstep with ⟨hnil, -⟩ | ⟨e', es', ha', hes, hitem⟩
  · cases hnil.symm.trans ha
  cases ha.symm.trans ha'
  have hrun : InRun (s.setAgenda es) := h.inRun
  exact ⟨⟨stepKeepsInvariants s t h.inv hstep, hitem.inRun hrun hr, (hitem.improves hrun hr).1 h.stop⟩, hes⟩

/-- One item of a run: a lane takes its step, or no lane changes and the item does not choose an enabled one. -/
theorem step_moves_or_same {s t : State} {e : Event} {es : List Event} (ha : s.agenda = e :: es) (hs : InRun s)
    (hr : resets e = false) (h : Machine.step s = .next t) :
    (t.lanes = s.lanes ∧ ∀ l, e = .lane l → Disabled l s) ∨ ∃ l, e = .lane l ∧ Moves l s t := by
  rcases step_item h with ⟨hnil, -⟩ | ⟨e', es', ha', -, hitem⟩
  · cases hnil.symm.trans ha
  cases ha.symm.trans ha'
  rcases hitem.run_cases hs hr with ⟨hne, hsame⟩ | ⟨l, rfl, he⟩
  · exact .inl ⟨hsame.lanes, fun l hl => absurd hl (hne l)⟩
  · rcases he.moves with ⟨hdis, rfl⟩ | hmoves
    · refine .inl ⟨rfl, fun m hm => ?_⟩
      cases hm
      exact hdis
    · exact .inr ⟨l, rfl, hmoves⟩

/-- A lane that is disabled in a run has no step left. -/
theorem Draining.stepsLeft_of_disabled {s : State} (h : Draining s) {l : Nat} (hd : Disabled l s) {x : Lane}
    (hx : s.lanes[l]? = some x) : stepsLeft x.state = 0 := by
  rw [stepsLeft_eq_zero_iff]
  rcases hd with hp | hd
  · exact drainSteps_eq_zero_iff.1 ((h.inv.stopped_iff h.inRun).1 (h.inRun.resolve_left hp)) x (List.mem_of_getElem? hx)
  · rcases hd x hx with hs | hs <;> rw [hs] <;> rfl

/-- Settles O54: the step of an active lane takes one from the count, and nothing else changes a lane. -/
theorem runDrainsAfterStop : Obligations.RunDrainsAfterStop := by
  intro s t e es hinv hp hstop ha hr hstep
  have hs : InRun s := .inl hp
  have hd : Draining s := ⟨hinv, hs, hstop⟩
  obtain ⟨⟨hinvt, hrunt, hstopt⟩, -⟩ := hd.step ha hr hstep
  refine ⟨hinv.drainSteps_le, hstopt, hinvt.stopped_iff hrunt, hrunt.symm, fun l x he hx hactive => ?_, fun hnone => ?_⟩
  · rcases step_moves_or_same ha hs hr hstep with ⟨-, hdis⟩ | ⟨m, hm, hmoves⟩
    · rw [stepsLeft_eq_zero_iff.1 (hd.stepsLeft_of_disabled (hdis l he) hx)] at hactive
      cases hactive
    · cases he.symm.trans hm
      obtain ⟨y, -, hy, hleft⟩ := hmoves.stepsLeft_lane hstop hx
      exact ⟨hmoves.drainSteps_succ hstop, y, hy, hleft⟩
  · rcases step_moves_or_same ha hs hr hstep with ⟨hlanes, -⟩ | ⟨l, he, -, x, -, hx, hactive, -⟩
    · rw [drainSteps, hlanes, drainSteps]
    · rw [hnone l x he hx] at hactive
      cases hactive

/-! ## Fair schedules -/

section Fair
variable {s : State} {sched : Schedule}

/-- One position of an execution takes one from the count exactly when a lane takes its step there. -/
theorem Draining.position {t u : State} {o : Option Event} (h : Draining t) (hr : ∀ e, o = some e → resets e = false)
    (hstep : Machine.step (t.setAgenda o.toList) = .next u) :
    Draining u ∧ drainSteps u + (t.takesLaneStep o).toNat = drainSteps t := by
  cases o with
  | none =>
    cases hstep
    exact ⟨h.setAgenda [], rfl⟩
  | some e =>
    specialize hr e rfl
    refine ⟨((h.setAgenda [e]).step rfl hr hstep).1, ?_⟩
    rcases step_moves_or_same rfl (h.setAgenda [e]).inRun hr hstep with ⟨hlanes, hdis⟩ | ⟨l, rfl, hmoves⟩
    · have hnot : t.takesLaneStep (some e) = false := by
        cases e with
        | lane l => exact disabled_iff.1 (hdis l rfl : Disabled l t)
        | command | reset => rfl
      rw [hnot, drainSteps, hlanes]
      rfl
    · have hcount := hmoves.drainSteps_succ h.stop
      obtain ⟨hp, x, -, hx, hactive, -⟩ := hmoves
      have htakes : t.takesLaneStep (some (.lane l)) = true := State.laneEnabled_iff.2 ⟨hp, x, hx, hactive⟩
      rw [htakes]
      exact hcount

/-- At every position the lane steps taken and the steps left make up the steps left at the start. -/
theorem Draining.stateAt (h : Draining s) (hr : ∀ k e, sched k = some e → resets e = false) (k : Nat) :
    ∃ t, Machine.stateAt s sched k = some t ∧ Draining t ∧ laneStepsTaken s sched k + drainSteps t = drainSteps s := by
  induction k with
  | zero => exact ⟨s.setAgenda [], rfl, h.setAgenda [], Nat.zero_add _⟩
  | succ k ih =>
    obtain ⟨t, ht, hd, hcount⟩ := ih
    obtain ⟨u, hu⟩ := noStepEverStops _ (hd.setAgenda (sched k).toList).inv
    obtain ⟨hdu, hposition⟩ := hd.position (hr k) hu
    refine ⟨u, stateAt_succ ht hu, hdu, ?_⟩
    rw [laneStepsTaken_succ ht]
    omega

theorem laneStepsTaken_mono (s : State) (sched : Schedule) : Monotone (laneStepsTaken s sched) :=
  monotone_nat_of_le_succ fun _ => Nat.le_add_right _ _

/-- A lane that is enabled is enabled at the next position, unless it is chosen (rule R147). -/
theorem laneEnabled_next {k l : Nat} {t u : State} (hr : ∀ k e, sched k = some e → resets e = false)
    (ht : Machine.stateAt s sched k = some t) (hu : Machine.stateAt s sched (k + 1) = some u) (hl : t.laneEnabled l = true)
    (hk : sched k ≠ some (.lane l)) : u.laneEnabled l = true := by
  obtain ⟨t', ht', hstep⟩ := stateAt_succ_inv hu
  cases ht.symm.trans ht'
  refine enabledUntilItSteps (t.setAgenda (sched k).toList) u l hl (fun e es he => ?_) hstep
  cases hsched : sched k with
  | none =>
    rw [hsched] at he
    cases he
  | some e' =>
    rw [hsched] at he
    cases he
    exact ⟨fun hlane => hk (hsched.trans (congrArg some hlane)), hr k e hsched⟩

/-- A lane that is enabled, and is chosen or disabled later on, is still enabled when it is chosen first. -/
theorem Draining.exists_chosen (h : Draining s) (hr : ∀ k e, sched k = some e → resets e = false) {l : Nat} (d : Nat) {k : Nat}
    {t : State} (ht : Machine.stateAt s sched k = some t) (hl : t.laneEnabled l = true)
    (hlater : sched (k + d) = some (.lane l) ∨ ∀ u, Machine.stateAt s sched (k + d) = some u → u.laneEnabled l = false) :
    ∃ j u, k ≤ j ∧ Machine.stateAt s sched j = some u ∧ u.laneEnabled l = true ∧ sched j = some (.lane l) := by
  induction d generalizing k t with
  | zero => exact ⟨k, t, Nat.le_refl k, ht, hl, hlater.resolve_right fun hoff => by simp [hoff t ht] at hl⟩
  | succ d ih =>
    by_cases hk : sched k = some (.lane l)
    · exact ⟨k, t, Nat.le_refl k, ht, hl, hk⟩
    · obtain ⟨u, hu, -⟩ := h.stateAt hr (k + 1)
      rw [← Nat.add_assoc, Nat.add_right_comm] at hlater
      obtain ⟨j, v, hj, hv⟩ := ih hu (laneEnabled_next hr ht hu hl hk) hlater
      exact ⟨j, v, Nat.le_of_succ_le hj, hv⟩

/-- Under weak fairness a run that has not ended takes another lane step. -/
theorem Draining.exists_laneStep (h : Draining s) (hr : ∀ k e, sched k = some e → resets e = false)
    (hfair : WeaklyFair s sched) {k : Nat} {t : State} (ht : Machine.stateAt s sched k = some t)
    (hp : t.phase = .searching) : ∃ j, laneStepsTaken s sched k + 1 ≤ laneStepsTaken s sched j := by
  obtain ⟨t', ht', hd, -⟩ := h.stateAt hr k
  cases ht.symm.trans ht'
  obtain ⟨-, x, hx, hactive⟩ := hd.inv.running hp
  obtain ⟨l, hl⟩ := List.mem_iff_getElem?.1 hx
  obtain ⟨j, hj, hlater⟩ := hfair l k
  obtain ⟨d, rfl⟩ := Nat.exists_eq_add_of_le hj
  obtain ⟨i, u, hi, hu, henabled, hchosen⟩ := h.exists_chosen hr d ht (State.laneEnabled_iff.2 ⟨hp, x, hl, hactive⟩) hlater
  refine ⟨i + 1, ?_⟩
  have htakes : u.takesLaneStep (sched i) = true := by rw [hchosen]; exact henabled
  rw [laneStepsTaken_succ hu, htakes]
  exact Nat.add_le_add_right (laneStepsTaken_mono s sched hi) 1

/-- Under weak fairness the run ends: only so many lane steps are left (rule R152). -/
theorem Draining.exists_stopped (h : Draining s) (hr : ∀ k e, sched k = some e → resets e = false)
    (hfair : WeaklyFair s sched) (n : Nat) {k : Nat} (hk : drainSteps s ≤ laneStepsTaken s sched k + n) :
    ∃ j t, Machine.stateAt s sched j = some t ∧ t.phase = .stopped := by
  induction n generalizing k with
  | zero =>
    obtain ⟨t, ht, hd, hcount⟩ := h.stateAt hr k
    exact ⟨k, t, ht, (hd.inv.stopped_iff hd.inRun).2 (by omega)⟩
  | succ n ih =>
    obtain ⟨t, ht, hd, -⟩ := h.stateAt hr k
    rcases hd.inRun with hp | hp
    · obtain ⟨j, hj⟩ := h.exists_laneStep hr hfair ht hp
      exact ih (k := j) (by omega)
    · exact ⟨k, t, ht, hp⟩

end Fair

/-! ## Lists that choose each lane often enough -/

/-- What an item leaves of a lane's steps: one less for the lane it chooses. -/
theorem Draining.stepsLeft_step {s t : State} {e : Event} {es : List Event} (h : Draining s) (ha : s.agenda = e :: es)
    (hr : resets e = false) (hstep : Machine.step s = .next t) {m : Nat} {y : Lane} (hy : t.lanes[m]? = some y) :
    ∃ x, s.lanes[m]? = some x ∧ stepsLeft y.state = stepsLeft x.state - if e = .lane m then 1 else 0 := by
  rcases step_moves_or_same ha h.inRun hr hstep with ⟨hlanes, hdis⟩ | ⟨l, rfl, hmoves⟩
  · rw [hlanes] at hy
    refine ⟨y, hy, ?_⟩
    split
    · rw [h.stepsLeft_of_disabled (hdis m ‹_›) hy]
    · rfl
  · obtain ⟨-, x, -, hx, -⟩ := id hmoves
    obtain ⟨y', hlanes, -, hleft⟩ := hmoves.stepsLeft_lane h.stop hx
    rw [hlanes] at hy
    rcases lane_of_set hy with ⟨rfl, rfl⟩ | ⟨hm, hy⟩
    · exact ⟨x, hx, by rw [if_pos rfl]; omega⟩
    · exact ⟨y, hy, by rw [if_neg (by simpa using Ne.symm hm), Nat.sub_zero]⟩

/-- A list of items that chooses each lane as often as it has steps left runs to the end of the run. -/
theorem Draining.run_stops {s : State} (h : Draining s) (es : List Event) (ha : s.agenda = es)
    (hr : ∀ e ∈ es, resets e = false)
    (hes : ∀ l x, s.lanes[l]? = some x → stepsLeft x.state ≤ es.countP (fun e => decide (e = .lane l))) :
    ∃ t : State, Sys2Proof.core.run es.length s = .next t ∧ t.phase = .stopped := by
  induction es generalizing s with
  | nil =>
    refine ⟨s, rfl, (h.inv.stopped_iff h.inRun).2 (drainSteps_eq_zero_iff.2 fun x hx => ?_)⟩
    obtain ⟨l, hl⟩ := List.mem_iff_getElem?.1 hx
    exact stepsLeft_eq_zero_iff.1 (Nat.le_zero.1 (hes l x hl))
  | cons e es ih =>
    obtain ⟨u, hu⟩ := noStepEverStops s h.inv
    obtain ⟨hre, hres⟩ := List.forall_mem_cons.1 hr
    obtain ⟨hd, hua⟩ := h.step ha hre hu
    rw [List.length_cons, core_run_next hu]
    refine ih hd hua hres fun l y hy => ?_
    obtain ⟨x, hx, hleft⟩ := h.stepsLeft_step ha hre hu hy
    have hle := hes l x hx
    rw [List.countP_cons] at hle
    simp only [decide_eq_true_eq] at hle
    omega

/-- Settles O55: the count of steps left bounds the lane steps, and fairness brings it to 0. -/
theorem fairScheduleStops : Obligations.FairScheduleStops := by
  intro s hinv hp hstop
  have h : Draining s := ⟨hinv, .inl hp, hstop⟩
  refine ⟨fun sched hfair hr => ?_, fun es hr hes => (h.setAgenda es).run_stops es rfl hr hes⟩
  obtain ⟨k, t, ht, hstopped⟩ := h.exists_stopped hr hfair (drainSteps s) (k := 0) (Nat.le_add_left _ _)
  obtain ⟨t', -, -, hcount⟩ := h.stateAt hr k
  have hle := hinv.drainSteps_le
  exact ⟨k, t, ht, hstopped, by omega⟩

end Sys2Proof
end

section
/-!
PROOFS. `L_EVAL` and the other agents (spec/43_search.md rule R144): it reads what no other agent writes in a run, and writes what
no other agent reads.
-/

namespace Sys2Proof

open Sys2Proof.Machine Sys2Proof.Safety

section Commute
variable {s u : State} {l m : Nat} {x y : Lane}

/-! ## Another lane's step -/

theorem Machine.State.setLane_comm (s : State) (hm : m ≠ l) (x y : Lane) :
    (s.setLane m x).setLane l y = (s.setLane l y).setLane m x :=
  congrArg s.setLanes (List.set_comm x y hm)

/-- The critical section of `L_PUBLISH` looks at no lane (rule R145). -/
theorem publish_setLane {n r t : FixedWord} {s' : State} (h : publish n r t s = some s') (l : Nat) (y : Lane) :
    publish n r t (s.setLane l y) = some (s'.setLane l y) := by
  rcases publish_cases n r t s with
    ⟨hr, h'⟩ | ⟨hr, hv, h'⟩ | ⟨-, -, -, h'⟩ | ⟨b, hr, hv, hb, hlt, h'⟩ | ⟨b, -, hv, hb, hle, h'⟩ <;>
    cases h.symm.trans h'
  · exact publish_of_miss hr
  · exact publish_of_first hr hv
  · exact publish_of_smaller hr hv hb hlt
  · exact publish_of_not_smaller hv hb hle

/-- Lane `m` does the same while another lane, which has not exited, changes. -/
theorem Machine.LaneEffect.setLane_other (h : LaneEffect m s u) (hm : m ≠ l) (hx : s.lanes[l]? = some x)
    (hxs : x.state ≠ .exited) (hys : y.state ≠ .exited) : LaneEffect m (s.setLane l y) (u.setLane l y) := by
  obtain ⟨hlt, -⟩ := List.getElem?_eq_some_iff.1 hx
  have hsame : (s.setLane l y).lanes[m]? = s.lanes[m]? := List.getElem?_set_ne hm.symm
  cases h with
  | none h =>
    exact .none (h.imp_right fun h z hz => h z (hsame ▸ hz))
  | goesOn z hp hz hs h =>
    rw [State.setLane_comm s hm]
    exact .goesOn z hp (hsame.trans hz) hs h
  | exits z hp hz hs h ha =>
    rw [State.setLane_comm s hm]
    refine .exits z hp (hsame.trans hz) hs h (eq_false_of_ne_true fun hall => hys ?_)
    exact (allExited_set_iff rfl).1 hall l y hm.symm (List.getElem?_set_self hlt)
  | ends z hp hz hs h ha => exact absurd ((allExited_set_iff rfl).1 ha l x hm.symm hx) hxs
  | fetches z hp hz hs =>
    rw [State.setLane_comm _ hm]
    exact .fetches z hp (hsame.trans hz) hs
  | evaluates z c n e hp hz hs hc hn he =>
    rw [State.setLane_comm s hm]
    exact .evaluates z c n e hp (hsame.trans hz) hs hc hn he
  | publishes z n r t s' hp hz hs hn hr ht h =>
    rw [State.setLane_comm s' hm]
    exact .publishes z n r t (s'.setLane l y) hp (hsame.trans hz) hs hn hr ht (publish_setLane h l y)

/-- The run does not end with the step of another lane while a lane has not exited. -/
theorem Machine.LaneEffect.phase_eq_of_other (h : LaneEffect m s u) (hm : m ≠ l) (hx : s.lanes[l]? = some x)
    (hxs : x.state ≠ .exited) : u.phase = s.phase := by
  rcases h.phase_cases with hphase | ⟨-, -, hexit, -⟩
  · exact hphase
  · exact absurd (hexit x (List.mem_of_getElem? ((h.otherLane hm.symm).trans hx))) hxs

/-! ## A command -/

/-- The same outcome with lane `l` changed to `y`. -/
def withLane (l : Nat) (y : Lane) (o : Host.Outcome State Fault Refusal) : Host.Outcome State Fault Refusal :=
  match o with
  | .next t => .next (t.setLane l y)
  | .fault r => .fault r
  | .refused r => .refused r

theorem withLane_ite (l : Nat) (y : Lane) (p : Prop) [Decidable p] (a b : Host.Outcome State Fault Refusal) :
    withLane l y (if p then a else b) = if p then withLane l y a else withLane l y b := apply_ite _ _ _ _

/-- The common checks look at no lane. -/
theorem checked_setLane {use : FieldUse} {inPhase : Phase → Bool} {f : Fields} {o o' : Host.Outcome State Fault Refusal}
    (h : inPhase s.phase = true → o' = withLane l y o) :
    checked use inPhase f (s.setLane l y) o' = withLane l y (checked use inPhase f s o) := by
  unfold checked
  split
  · rfl
  · rw [State.setLane_phase]
    split
    · rfl
    · exact h (by simpa using ‹¬ inPhase s.phase = false›)

theorem finishWith_setLane (cell : ValueCell) (v : Option FixedWord) :
    finishWith (s.setLane l y) cell v = withLane l y (finishWith s cell v) := by
  cases v <;> rfl

/-- In a run no command but `RESET` looks at a lane, except `RD_STATUS`, which counts the active ones. -/
theorem exec_setLane {i : Instr} (hi : ∀ f, i ≠ .reset f) (hp : s.phase = .searching)
    (ha : (s.setLane l y).lanesActive = s.lanesActive) : exec i (s.setLane l y) = withLane l y (exec i s) := by
  cases i <;> refine checked_setLane fun hpermitted => ?_
  case reset f => exact absurd rfl (hi f)
  case wrTable | wrCommit | wrTarget | arm | eval | search =>
    rw [hp] at hpermitted
    cases hpermitted
  case rdStatus =>
    rw [State.statusWord, ha]
    rfl
  case rdCommit | rdTarget | rdNonce | rdResult | rdBestNonce | rdBestResult =>
    rw [withLane_ite, ← finishWith_setLane]; rfl
  case rdTable | rdIdx => rw [withLane_ite, withLane_ite, ← finishWith_setLane]; rfl
  case rdConst f =>
    rw [State.setLane_cfg]
    cases (constSpace s.cfg)[f.addr.toNat]? <;> rfl
  case nop | clrErr | halt | rdCursor => rfl

/-- A lane that stays active leaves their number as it is (rule R19). -/
theorem lanesActive_setLane (hx : s.lanes[l]? = some x) (hxa : x.state.active = true) (hya : y.state.active = true) :
    (s.setLane l y).lanesActive = s.lanesActive := by
  obtain ⟨hlt, rfl⟩ := List.getElem?_eq_some_iff.1 hx
  have hpos : 0 < s.lanesActive := List.countP_pos_iff.2 ⟨_, List.getElem_mem hlt, hxa⟩
  have hset : (s.setLane l y).lanesActive = s.lanesActive - 1 + 1 := by
    simp [State.lanesActive, List.countP_set hlt, hxa, hya]
  omega

/-! ## Any other item -/

/-- In `s`, and wherever the run stands while the lane and the configuration are as in `s`, `L_EVAL` turns lane `l` into `y`,
which waits to publish. -/
structure EvaluatesTo (l : Nat) (s : State) (y : Lane) : Prop where
  effect : ∀ u, u.phase = .searching → u.lanes[l]? = s.lanes[l]? → SameConfiguration s u → laneStep l u = .next (u.setLane l y)
  state : y.state = .publish

/-- A lane in `EVAL` has its operands (rules R12, R144). -/
theorem Safety.Inv.exists_evaluatesTo (h : Inv s) (hp : s.phase = .searching) (hx : s.lanes[l]? = some x)
    (hs : x.state = .eval) : ∃ y, EvaluatesTo l s y := by
  obtain ⟨n, hn⟩ := Option.isSome_iff_exists.1 ((h.laneInv (List.mem_of_getElem? hx)).nonceHolds.trans (by simp [hs]))
  obtain ⟨c, -, e, hc, -, he⟩ := h.exists_evaluation (by simp [hp]) n
  refine ⟨{ x with state := .publish, result := some e.result }, fun u hpu hxu hconf => ?_, rfl⟩
  have heu : evaluate u.cfg u.table c n = some e := by rw [hconf.cfg, hconf.table, he]
  exact (LaneEffect.evaluates x c n e hpu (hxu.trans hx) hs (hconf.commit.trans hc) hn heu).laneStep_eq

/-- After a reset the choice of a lane changes nothing (rule R191, notes/assumptions/6.md). -/
theorem laneStep_of_loading (hp : u.phase = .loading) : laneStep l u = .next u :=
  laneStep_of_disabled (.inl (by simp [hp]))

/-- What a command makes of a run whatever lane `l` does: a reset forgets the lane, and no other command looks at it. -/
theorem exec_commutes {i : Instr} (hp : s.phase = .searching) (ha : (s.setLane l y).lanesActive = s.lanesActive)
    (hu : exec i s = .next u) :
    (u.phase = .loading ∧ exec i (s.setLane l y) = .next u) ∨
      (SameRun s u ∧ SameConfiguration s u ∧ exec i (s.setLane l y) = .next (u.setLane l y)) := by
  cases hw : i.wellFormed with
  | false =>
    rw [exec_of_not_wellFormed hw] at hu ⊢
    cases hu
    exact .inr ⟨.fail s _, .fail s _, rfl⟩
  | true =>
    by_cases hi : ∃ f, i = .reset f
    · obtain ⟨f, rfl⟩ := hi
      cases hu.symm.trans (exec_of_carried hw (.reset f))
      exact .inl ⟨rfl, exec_of_carried hw (.reset f)⟩
    · have hi : ∀ f, i ≠ .reset f := not_exists.1 hi
      have hexec : exec i (s.setLane l y) = .next (u.setLane l y) := by rw [exec_setLane hi hp ha, hu]; rfl
      rcases exec_cases hu with ⟨e, rfl⟩ | ⟨s', d, hc, rfl⟩
      · exact .inr ⟨.fail s e, .fail s e, hexec⟩
      · exact .inr ⟨(hc.sameRun (.inl hp) hi).respondOk d, (hc.sameConfiguration (by simp [hp]) hi).respondOk d, hexec⟩

/-- The same of a command word, which may be undefined (rule R65). -/
theorem takeCommand_commutes {w : CommandWord} (hp : s.phase = .searching)
    (ha : (s.setLane l y).lanesActive = s.lanesActive) (hu : takeCommand w s = .next u) :
    (u.phase = .loading ∧ takeCommand w (s.setLane l y) = .next u) ∨
      (SameRun s u ∧ SameConfiguration s u ∧ takeCommand w (s.setLane l y) = .next (u.setLane l y)) := by
  unfold takeCommand at hu ⊢
  cases hd : decode w with
  | ok i =>
    rw [hd] at hu
    exact exec_commutes hp ha hu
  | error =>
    rw [hd] at hu
    cases hu
    exact .inr ⟨.fail s _, .fail s _, rfl⟩

/-- Any item but lane `l`'s own does the same before and after `L_EVAL` of lane `l`. -/
theorem handle_commutes (hp : s.phase = .searching) (hx : s.lanes[l]? = some x) (hs : x.state = .eval)
    (hy : EvaluatesTo l s y) {e : Event} (he : e ≠ .lane l) (hu : handle e s = .next u) :
    ∃ v, handle e (s.setLane l y) = .next v ∧ laneStep l u = .next v := by
  have hxs : x.state ≠ .exited := by simp [hs]
  have hys : y.state ≠ .exited := by simp [hy.state]
  cases e with
  | reset =>
    cases hu
    exact ⟨s.resetBlock, rfl, laneStep_of_loading rfl⟩
  | lane m =>
    have hm : m ≠ l := fun hml => he (hml ▸ rfl)
    have hlane : LaneEffect m s u := laneStep_cases hu
    exact ⟨u.setLane l y, (hlane.setLane_other hm hx hxs hys).laneStep_eq,
      hy.effect u ((hlane.phase_eq_of_other hm hx hxs).trans hp) (hlane.otherLane hm.symm) hlane.sameConfiguration⟩
  | command w =>
    have hactive := lanesActive_setLane hx (by rw [hs]; rfl) (by rw [hy.state]; rfl)
    rcases takeCommand_commutes hp hactive hu with ⟨hpu, hv⟩ | ⟨hrun, hconf, hv⟩
    · exact ⟨u, hv, laneStep_of_loading hpu⟩
    · exact ⟨u.setLane l y, hv, hy.effect u (hrun.phase.trans hp) (hrun.lanes ▸ rfl) hconf⟩

end Commute

/-- Two items, one after the other, each with a next state. -/
theorem core_run_two {s t u : State} (h : step s = .next t) (h' : step t = .next u) : Sys2Proof.core.run 2 s = .next u :=
  (core_run_next h 1).trans (core_run_next h' 0)

/-- Settles O49: either order ends in the state that the other item leaves, with lane `l` as `L_EVAL` leaves it. -/
theorem laneEvalCommutes : Obligations.LaneEvalCommutes := by
  intro s l x e es hinv hp hx hs he
  have hinv' : Inv (s.setAgenda es) := hinv.setAgenda es
  obtain ⟨y, hy⟩ := hinv'.exists_evaluatesTo hp hx hs
  obtain ⟨u, hu⟩ := hinv'.handle_progress e
  obtain ⟨v, hv, hlane⟩ := handle_commutes (s := s.setAgenda es) hp hx hs hy he hu
  have hrest : u.setAgenda es = u := by
    rw [← (handle_cases hu).agenda_eq.trans (State.setAgenda_agenda s es)]
    rfl
  have hevalFirst : step (s.setAgenda (.lane l :: e :: es)) = .next ((s.setAgenda (e :: es)).setLane l y) :=
    hy.effect (s.setAgenda (e :: es)) hp rfl ⟨rfl, rfl, rfl, rfl, rfl, rfl, rfl⟩
  have hitemFirst : step (s.setAgenda (e :: .lane l :: es)) = .next (u.setAgenda (.lane l :: es)) :=
    (handle_setAgenda e (s.setAgenda es) (.lane l :: es)).trans (congrArg (withAgenda _) hu)
  have hevalLast : step (u.setAgenda (.lane l :: es)) = .next v := by
    show laneStep l (u.setAgenda es) = .next v
    rw [hrest, hlane]
  exact (core_run_two hevalFirst hv).trans (core_run_two hitemFirst hevalLast).symm

end Sys2Proof
end

section
/-!
PROOFS. Errors (spec/60_exceptions.md): a command fails exactly as the table of rule R172 says, in the order of rule R173, and a
lane step touches nothing outside the run (rules R179, R185).
-/

namespace Sys2Proof

open Sys2Proof.Machine Sys2Proof.Safety

/-! ## Commands that fail -/

/-- The three checks in the order of rule R173 answer the code the table gives. -/
theorem exec_answers_error {i : Instr} {s : State} {code : Nat} (h : errorOf i s = some code) :
    exec i s = .next (answeredError s code) := by
  unfold errorOf at h
  split at h
  · cases h
    exact exec_answers_field ‹_› s
  · rename_i hw
    split at h
    · cases h
      exact exec_answers_phase (eq_true_of_ne_false hw) ‹_›
    · exact exec_answers_ownError (eq_true_of_ne_false hw) (eq_true_of_ne_false ‹_›) h

/-- A check gives no code when it passes and the checks after it give none. -/
theorem check_eq_none_iff {c : Prop} [Decidable c] {code : Nat} {rest : Option Nat} :
    (if c then some code else rest) = none ↔ ¬ c ∧ rest = none := by
  split <;> simp [*]

theorem errorOf_eq_none_iff {i : Instr} {s : State} :
    errorOf i s = none ↔ i.wellFormed = true ∧ permitted i s.phase = true ∧ ownError i s = none := by
  simp [errorOf, check_eq_none_iff]

/-- A word with an undefined opcode fails with `E_OPCODE`, whatever its other fields are. -/
theorem wordError_of_undefined {w : CommandWord} (h : opcodeField w ∉ definedOpcodes) (s : State) :
    wordError w s = some 1 :=
  if_pos h

/-- A word that decodes fails as its command does. -/
theorem wordError_of_decode {w : CommandWord} {i : Instr} (hop : opcodeField w ∈ definedOpcodes) (hd : decode w = .ok i)
    (s : State) : wordError w s = errorOf i s :=
  (if_neg (not_not_intro hop)).trans (by rw [hd])

/-! ## Commands that are carried out -/

/-- A read behind a valid bit that passed the check of rule R172 finds the value it needs (rule R12). -/
theorem exists_carried_of_valid {i : Instr} {s : State} {valid : Bool} {v : Option FixedWord} (hv : v.isSome = valid)
    (he : (if valid = false then some 7 else none) = none) (hread : ∀ d, valid = true → v = some d → Carried s i s d) :
    ∃ s' d, Carried s i s' d := by
  have hvalid : valid = true := by simpa using he
  obtain ⟨d, hd⟩ := Option.isSome_iff_exists.1 (hv.trans hvalid)
  exact ⟨s, d, hread d hvalid hd⟩

/-- With the invariants, a permitted command without an error of its own finds the values it needs: it has an effect (rules R12,
R172). -/
theorem Safety.Inv.exists_carried {s : State} (h : Inv s) {i : Instr} (hp : permitted i s.phase = true)
    (he : ownError i s = none) : ∃ s' d, Carried s i s' d := by
  obtain ⟨hnonce, hresult, -⟩ := h.contextHolds
  obtain ⟨hbestNonce, hbestResult⟩ := h.bestHolds
  cases i with
  | nop f => exact ⟨_, _, .nop f⟩
  | reset f => exact ⟨_, _, .reset f⟩
  | clrErr f => exact ⟨_, _, .clrErr f⟩
  | wrTable f => exact ⟨_, _, .wrTable f (of_decide_eq_true hp) (by simpa [ownError] using he)⟩
  | wrCommit f => exact ⟨_, _, .wrCommit f (of_decide_eq_true hp)⟩
  | wrTarget f => exact ⟨_, _, .wrTarget f (of_decide_eq_true hp)⟩
  | arm f => exact ⟨_, _, .arm f (of_decide_eq_true hp) (by simpa [ownError] using he)⟩
  | eval f =>
    have hphase : s.phase = .armed ∨ s.phase = .stopped := of_decide_eq_true hp
    obtain ⟨c, t, e, hc, ht, hev⟩ := h.exists_evaluation (by rcases hphase with hp | hp <;> simp [hp]) f.data
    exact ⟨_, _, .eval f c t e hphase hc hev ht⟩
  | search f => exact ⟨_, _, .search f (of_decide_eq_true hp)⟩
  | halt f => exact ⟨_, _, .halt f (of_decide_eq_true hp)⟩
  | rdStatus f => exact ⟨_, _, .rdStatus f⟩
  | rdCursor f => exact ⟨_, _, .rdCursor f⟩
  | rdConst f =>
    have hlt : f.addr.toNat < 19 := by simpa [ownError] using he
    exact ⟨_, _, .rdConst f _ (List.getElem?_eq_getElem (hlt.trans_eq (constSpace_length s.cfg).symm))⟩
  | rdTable f =>
    obtain ⟨hN, hl⟩ : f.addr.toNat < s.cfg.N ∧ f.addr.toNat < s.loadPtr := by
      simpa [ownError, check_eq_none_iff] using he
    obtain ⟨v, hv⟩ := Option.isSome_iff_exists.1 ((h.tableHolds f.addr.toNat).trans (decide_eq_true hl))
    exact ⟨_, _, .rdTable f v hN hl hv⟩
  | rdIdx f =>
    obtain ⟨ha, hdone⟩ : f.addr.toNat < 10 ∧ s.done = true := by simpa [ownError, check_eq_none_iff] using he
    obtain ⟨v, hv⟩ := Option.isSome_iff_exists.1 ((h.readIdx_isSome ha).trans hdone)
    exact ⟨_, _, .rdIdx f v ha hdone hv⟩
  | rdCommit f => exact exists_carried_of_valid h.commitHolds he (.rdCommit f)
  | rdTarget f => exact exists_carried_of_valid h.targetHolds he (.rdTarget f)
  | rdNonce f => exact exists_carried_of_valid hnonce he (.rdNonce f)
  | rdResult f => exact exists_carried_of_valid hresult he (.rdResult f)
  | rdBestNonce f => exact exists_carried_of_valid hbestNonce he (.rdBestNonce f)
  | rdBestResult f => exact exists_carried_of_valid hbestResult he (.rdBestResult f)

/-- With the invariants, a command the table gives no code for is answered `OK` (rules R61, R172). -/
theorem Safety.Inv.exec_answers_ok {s : State} (h : Inv s) {i : Instr} (he : errorOf i s = none) :
    ∃ t d, exec i s = .next t ∧ t.responses = s.responses ++ [responseWord 0x00 t.flagsByte d] := by
  obtain ⟨hw, hp, hown⟩ := errorOf_eq_none_iff.1 he
  obtain ⟨s', d, hc⟩ := h.exists_carried hp hown
  exact ⟨answeredOk s' d, d, exec_of_carried hw hc, congrArg (· ++ _) hc.channels.2⟩

/-- Settles O39: the decoder gives the first row of the table, and the checks of the decoded command the others. -/
theorem errorsAreThoseOfTheTable : Obligations.ErrorsAreThoseOfTheTable := by
  intro s w es hs
  by_cases hop : opcodeField w ∈ definedOpcodes
  · obtain ⟨i, hd⟩ := decode_of_mem_definedOpcodes hop
    have hword : wordError w s = errorOf i (s.setAgenda es) := wordError_of_decode hop hd s
    have hstep : Machine.step s = exec i (s.setAgenda es) := (step_of_command hs).trans (takeCommand_of_ok hd _)
    rw [hword, hstep]
    exact ⟨fun code => exec_answers_error, fun h => (h.setAgenda es).exec_answers_ok⟩
  · rw [wordError_of_undefined hop]
    refine ⟨fun code hcode => ?_, fun _ hnone => by cases hnone⟩
    cases hcode
    exact (undefinedOpcodesFail s w es hs).1 hop

/-! ## Lane steps -/

/-- A lane step writes no register outside the search run (rules R17, R179, R185). -/
theorem Machine.LaneEffect.eq_of_run {l : Nat} {s t : State} (h : LaneEffect l s t) :
    t = { s with
      phase := t.phase, cursor := t.cursor, stop := t.stop, bestValid := t.bestValid
      bestNonce := t.bestNonce, bestResult := t.bestResult, lanes := t.lanes } := by
  cases h with
  | none | goesOn | exits | ends | fetches | evaluates => rfl
  | publishes x n r t s' hp hx hs hn hr ht h =>
    rcases publish_eq_some h with rfl | ⟨-, -, rfl⟩ | ⟨b, -, -, -, -, rfl⟩ <;> rfl

/-- A lane step keeps the number of lanes. -/
theorem Machine.LaneEffect.lanes_length {l : Nat} {s t : State} (h : LaneEffect l s t) :
    t.lanes.length = s.lanes.length := by
  rcases h.moves with ⟨-, rfl⟩ | ⟨-, x, y, -, -, hlanes, -⟩
  · rfl
  · rw [hlanes, List.length_set]

/-- Settles O48: a lane step has the frame of its effect, keeps the number of lanes and leaves the others alone. -/
theorem laneStepsTouchOnlyTheRun : Obligations.LaneStepsTouchOnlyTheRun := by
  intro s t l es ha hstep
  have h : LaneEffect l (s.setAgenda es) t := laneStep_cases (by simpa only [step, ha, handle] using hstep)
  exact ⟨h.eq_of_run, h.lanes_length, fun m hm => h.otherLane hm⟩

end Sys2Proof
end

section
/-!
PROOFS. The boot sequence (spec/70_reset_and_hazards.md rule R192) and the messages the host hashes (rules R193, R194).
-/

namespace Sys2Proof

open Sys2Proof.Machine Sys2Proof.Safety

/-! ## Commands that are all answered `OK` -/

/-- A block that has answered `k` commands and none of them with an error. -/
structure AllOk (k : Nat) (s : State) : Prop where
  err : s.err = 0
  count : s.responses.length = k
  codes : ∀ r ∈ s.responses, r.extractLsb' 312 8 = 0

/-- One more command carried out, with an effect that leaves `ERR` and the response channel alone. -/
theorem AllOk.respondOk {k : Nat} {s s' : State} {d : FixedWord} (h : AllOk k s) (herr : s'.err = s.err)
    (hres : s'.responses = s.responses) : AllOk (k + 1) (s'.respondOk d) where
  err := herr.trans h.err
  count := by rw [State.respondOk_responses, List.length_append, hres, h.count, List.length_singleton]
  codes r hr := by
    rw [State.respondOk_responses, hres, List.mem_append, List.mem_singleton] at hr
    rcases hr with hr | rfl
    · exact h.codes r hr
    · exact responseWord_code ..

/-- A well-formed command at the head of the agenda whose effect the rules give is carried out and answered. -/
theorem step_of_carried {s s' : State} {i : Instr} {es : List Event} {d : FixedWord}
    (ha : s.agenda = .command (encode i) :: es) (hw : i.wellFormed = true) (hc : Carried (s.setAgenda es) i s' d) :
    step s = .next (s'.respondOk d) :=
  (stepRunsDecodedCommand s (encode i) es i ha (decode_encode i)).trans (exec_of_carried hw hc)

/-! ## The boot sequence

The four commands of the boot sequence, each at the head of the agenda of a block in `LOADING`. -/

section

variable {s : State} {es : List Event} {v : FixedWord}

theorem step_wrTable (ha : s.agenda = .command (commandWord .wrTable 0 v) :: es) (hp : s.phase = .loading)
    (hN : s.loadPtr ≠ s.cfg.N) : step s = .next (((s.setAgenda es).appendTable v).respondOk 0) :=
  step_of_carried ha rfl (.wrTable ⟨0, 0, v⟩ hp hN)

theorem step_wrCommit (ha : s.agenda = .command (commandWord .wrCommit 0 v) :: es) (hp : s.phase = .loading) :
    step s = .next (((s.setAgenda es).setCommit v).respondOk 0) :=
  step_of_carried ha rfl (.wrCommit ⟨0, 0, v⟩ hp)

theorem step_wrTarget (ha : s.agenda = .command (commandWord .wrTarget 0 v) :: es) (hp : s.phase = .loading) :
    step s = .next (((s.setAgenda es).setTarget v).respondOk 0) :=
  step_of_carried ha rfl (.wrTarget ⟨0, 0, v⟩ hp)

theorem step_arm (ha : s.agenda = .command (commandWord .arm 0 0) :: es) (hp : s.phase = .loading)
    (hN : ¬ s.loadPtr < s.cfg.N) (hc : s.cValid = true) (ht : s.tValid = true) :
    step s = .next (((s.setAgenda es).setPhase .armed).respondOk 0) :=
  step_of_carried ha rfl (.arm ⟨0, 0, 0⟩ hp (by simp [hN, hc, ht]))

end

/-- A block in `LOADING` whose table holds exactly the words `ws`, each of them answered `OK`. -/
structure Loaded (ws : List FixedWord) (s : State) : Prop where
  phase : s.phase = .loading
  loadPtr : s.loadPtr = ws.length
  table : ∀ a, Memory.read s.table a = ws[a]?
  allOk : AllOk ws.length s

theorem loaded_resetOf (cfg : Config) (es : List Event) : Loaded [] { State.resetOf cfg with agenda := es } where
  phase := rfl
  loadPtr := rfl
  table _ := rfl
  allOk := ⟨rfl, rfl, fun _ hr => absurd hr List.not_mem_nil⟩

/-- The next word goes behind those already loaded (rule R83). -/
theorem Loaded.appendTable {ws : List FixedWord} {s : State} (h : Loaded ws s) (w : FixedWord) (es : List Event) :
    Loaded (ws ++ [w]) (((s.setAgenda es).appendTable w).respondOk 0) where
  phase := h.phase
  loadPtr := by simp [h.loadPtr]
  table a := by
    have hread : Memory.read (Memory.write s.table s.loadPtr w) a = if a = ws.length then some w else ws[a]? := by
      rw [Memory.read_write, h.loadPtr, h.table]
    refine hread.trans ?_
    split
    · subst a; exact List.getElem?_concat_length.symm
    · rename_i hne
      rcases Nat.lt_or_gt_of_ne hne with hlt | hgt
      · exact (List.getElem?_append_left hlt).symm
      · rw [List.getElem?_eq_none hgt.le, List.getElem?_eq_none (by simpa using hgt)]
  allOk := by
    rw [List.length_append, List.length_singleton]
    exact h.allOk.respondOk rfl rfl

/-- `LOADTABLE` (rule R72) puts its words behind those already loaded, one step for each. -/
theorem Loaded.run_loadTable {done ws : List FixedWord} {s : State} {es : List Event} (h : Loaded done s)
    (ha : s.agenda = (pseudoLoadTable ws).map .command ++ es) (hroom : done.length + ws.length ≤ s.cfg.N) (k : Nat) :
    ∃ t : State, Sys2Proof.core.run (ws.length + k) s = Sys2Proof.core.run k t ∧ Loaded (done ++ ws) t ∧ t.agenda = es ∧
      t.cfg = s.cfg := by
  induction ws generalizing done s with
  | nil => exact ⟨s, by rw [List.length_nil, Nat.zero_add], (List.append_nil done).symm ▸ h, ha, rfl⟩
  | cons w ws ih =>
    rw [List.length_cons] at hroom
    have hptr : s.loadPtr ≠ s.cfg.N := by have := h.loadPtr; omega
    have hroom' : (done ++ [w]).length + ws.length ≤ s.cfg.N := by
      rw [List.length_append, List.length_singleton]
      omega
    obtain ⟨t, hrun, ht, hagenda, hcfg⟩ := ih (h.appendTable w _) rfl hroom'
    refine ⟨t, ?_, List.append_cons done w ws ▸ ht, hagenda, hcfg⟩
    rw [List.length_cons, Nat.succ_add]
    exact (core_run_next (step_wrTable ha h.phase hptr) _).trans hrun

/-- Three items, one after the other, each with a next state. -/
theorem core_run_three {s t u v : State} (h : step s = .next t) (h' : step t = .next u) (h'' : step u = .next v) :
    Sys2Proof.core.run 3 s = .next v :=
  (core_run_next h 2).trans (core_run_two h' h'')

/-- `BOOT` (rule R72) on a full table: the two registers are written and `ARM` finds everything ready (rule R86). -/
theorem Loaded.run_boot {ws : List FixedWord} {s : State} {c t : FixedWord} (h : Loaded ws s)
    (hfull : ws.length = s.cfg.N) (ha : s.agenda = (pseudoBoot c t).map .command) :
    ∃ u : State, Sys2Proof.core.run 3 s = .next u ∧ AllOk (ws.length + 3) u ∧ u.phase = .armed ∧
      u.loadPtr = s.loadPtr ∧ u.table = s.table ∧ u.commit = some c ∧ u.target = some t ∧ u.agenda = [] := by
  have hptr : ¬ s.loadPtr < s.cfg.N := by
    rw [h.loadPtr, hfull]
    exact Nat.lt_irrefl _
  have hrun := core_run_three (step_wrCommit ha h.phase) (step_wrTarget rfl h.phase) (step_arm rfl h.phase hptr rfl rfl)
  have hcommit : AllOk (ws.length + 1) ((s.setCommit c).respondOk 0) := h.allOk.respondOk rfl rfl
  have htarget : AllOk (ws.length + 2) ((((s.setCommit c).respondOk 0).setTarget t).respondOk 0) :=
    hcommit.respondOk rfl rfl
  exact ⟨_, hrun, htarget.respondOk rfl rfl, rfl, rfl, rfl, rfl, rfl, rfl⟩

/-- Settles O58: `LOADTABLE` fills the table that reset left empty, and `BOOT` arms the block. -/
theorem bootSequenceArms : Obligations.BootSequenceArms := by
  intro cfg ws c t hN
  obtain ⟨s, hrun, hs, hagenda, hcfg⟩ :=
    (loaded_resetOf cfg ((bootSequence ws c t).map .command)).run_loadTable (List.map_append ..)
      (by rw [List.length_nil, Nat.zero_add]; exact hN.le) 3
  rw [List.nil_append] at hs
  obtain ⟨u, hboot, hok, hphase, hptr, htable, hc, ht, hnil⟩ := hs.run_boot (hN.trans (congrArg Config.N hcfg.symm)) hagenda
  rw [hN] at hrun hok
  exact ⟨u, hrun.trans hboot, hphase, hptr.trans (hs.loadPtr.trans hN), fun i _ => htable ▸ hs.table i, hc, ht, hok.err, hnil,
    hok.count, hok.codes⟩

/-! ## Bytes of a word -/

/-- Byte `b` of the `n`-byte form, counted from the most significant one (rule R62). -/
theorem bytesBe_getElem? {n b : Nat} (hb : b < n) (v : Nat) :
    (bytesBe n v)[b]? = some (BitVec.ofNat 8 (v / 256 ^ (n - 1 - b))) := by
  induction n generalizing b with
  | zero => exact absurd hb (Nat.not_lt_zero b)
  | succ n ih =>
    cases b with
    | zero => rfl
    | succ b =>
      rw [bytesBe, List.getElem?_cons_succ, ih (Nat.lt_of_succ_lt_succ hb), Nat.add_sub_cancel, Nat.sub_sub, Nat.add_comm 1]

/-- The bytes that stand for a number are the bytes of that number. -/
theorem bytesBe_intBe (bytes : List Byte) : bytesBe bytes.length (intBe bytes) = bytes := by
  induction bytes using List.reverseRecOn with
  | nil => rfl
  | append_singleton bytes b ih =>
    have hval : intBe (bytes ++ [b]) = 256 ^ 1 * intBe bytes + b.toNat := by
      rw [intBe, List.foldl_append, pow_one, Nat.mul_comm]
      rfl
    rw [hval, List.length_append, List.length_singleton, bytesBe_add _ 1 _ _ b.isLt, ih, bytesBe_one]

@[simp] theorem be32_length (v : Nat) : (be32 v).length = 32 := bytesBe_length 32 v

/-- 32 bytes hold a number modulo `2^256`. -/
theorem be32_toNat_ofNat (v : Nat) : be32 (BitVec.ofNat 256 v).toNat = be32 v := by
  rw [BitVec.toNat_ofNat, be32, be32, ← bytesBe_add_mul 32 (v / 2 ^ 256), ← two_pow_eight_mul, Nat.div_add_mod]

/-- Byte `b` of a word, most significant first: bits `255 - 8 b` down to `248 - 8 b`. -/
theorem be32_getElem? {b : Nat} (hb : b < 32) (v : FixedWord) :
    (be32 v.toNat)[b]? = some (v.extractLsb' (248 - 8 * b) 8) := by
  have hexp : 8 * (32 - 1 - b) = 248 - 8 * b := by omega
  rw [be32, bytesBe_getElem? hb, ← two_pow_eight_mul, hexp, ← Nat.shiftRight_eq_div_pow]
  rfl

/-- Two words with the same 32 bytes are equal. -/
theorem be32_toNat_inj {v w : FixedWord} (h : be32 v.toNat = be32 w.toNat) : v = w := by
  have hval (u : FixedWord) : intBe (be32 u.toNat) = u.toNat := by
    rw [be32, intBe_bytesBe, ← two_pow_eight_mul, Nat.mod_eq_of_lt u.isLt]
  exact BitVec.eq_of_toNat_eq ((hval v).symm.trans ((congrArg intBe h).trans (hval w)))

/-- The bytes of a digest read as a word are the digest (rule R193, decision D26). -/
theorem be32_digestWord (digest : Vector Byte 32) : be32 (digestWord digest).toNat = digest.toList := by
  have hbytes := bytesBe_intBe digest.toList
  rw [digest.length_toList] at hbytes
  exact (be32_toNat_ofNat _).trans hbytes

/-! ## The messages -/

/-- The header message is the bytes of the five fields in declaration order (rule R194). -/
theorem headerMessage_eq_flatMap (h : PuzzleHeader) : headerMessage h =
    [h.solverIdentity, h.blockNumber, h.blockHash, h.targetField, h.height].flatMap fun v => be32 v.toNat := by
  simp [headerMessage]

/-- In words laid out one after the other, byte `b` of word `j` stands at `32 j + b`. -/
theorem flatMap_be32_getElem? {vs : List FixedWord} {j b : Nat} {v : FixedWord} (hb : b < 32) (hv : vs[j]? = some v) :
    (vs.flatMap fun v => be32 v.toNat)[32 * j + b]? = (be32 v.toNat)[b]? := by
  induction vs generalizing j with
  | nil => cases hv
  | cons u vs ih =>
    rw [List.flatMap_cons]
    cases j with
    | zero =>
      cases hv
      rw [Nat.mul_zero, Nat.zero_add, List.getElem?_append_left (by rwa [be32_length])]
    | succ j =>
      rw [List.getElem?_append_right (by rw [be32_length]; omega), be32_length, ← ih hv]
      congr 1
      omega

theorem headerMessage_inj {h h' : PuzzleHeader} (heq : headerMessage h = headerMessage h') : h = h' := by
  obtain ⟨heq, hheight⟩ := List.append_inj' heq (by simp)
  obtain ⟨heq, htarget⟩ := List.append_inj' heq (by simp)
  obtain ⟨heq, hhash⟩ := List.append_inj' heq (by simp)
  obtain ⟨hsolver, hnumber⟩ := List.append_inj' heq (by simp)
  cases h
  cases h'
  simp only [PuzzleHeader.mk.injEq]
  exact ⟨be32_toNat_inj hsolver, be32_toNat_inj hnumber, be32_toNat_inj hhash, be32_toNat_inj htarget, be32_toNat_inj hheight⟩

/-- Settles O59: every group of 32 bytes is the big-endian form of its value, in its place in the message. -/
theorem hashedMessagesAreExact : Obligations.HashedMessagesAreExact := by
  refine ⟨fun hash seed count i hi => ?_, fun seed i => ⟨?_, List.take_left, fun b hb => ?_⟩,
    fun h => ⟨?_, fun j b v hb hv => ?_⟩, fun h h' => headerMessage_inj, fun _ _ => rfl, fun digest b hb => ?_⟩
  · simp [generateTable, hi]
  · rw [bufferMessage, List.length_append, be32_length]
  · rw [bufferMessage, List.getElem?_append_right (Nat.le_add_right ..), Nat.add_sub_cancel_left, ← be32_toNat_ofNat,
      be32_getElem? hb]
  · simp [headerMessage]
  · rw [headerMessage_eq_flatMap, flatMap_be32_getElem? hb hv, be32_getElem? hb]
  · rw [← be32_digestWord, be32_getElem? hb]

end Sys2Proof
end
